-- ==== Sys2Proof/Word.lean ====
section
/-! DEFINITION. The word and index types of the T816 (spec 00 "Conventions", R68, R93). -/

namespace Sys2Proof

/-- A 32-bit word: registers, addresses, record words. -/
abbrev Word32 := BitVec 32

/-- A value of the 48-bit time base TB (R68); sums of ticks wrap modulo 2^48. -/
abbrev Ticks := BitVec 48

/-- The 32 bytes of a record, entry slot or command, byte 0 in the low bits (spec 12). -/
abbrev Slot := BitVec 256

/-- A channel number, 0 to 7. -/
abbrev ChanId := Fin 8

/-- A line number, 0 to 15. -/
abbrev LineId := Fin 16

/-- A completion ring number, CQ0 to CQ3. -/
abbrev RingId := Fin 4

/-- A notice context: CQ0 to CQ3, and 4 for the ACQ (spec 08). -/
abbrev NoticeId := Fin 5

/-- The eight channel numbers in rising order. -/
def allChans : List ChanId := [0, 1, 2, 3, 4, 5, 6, 7]

end Sys2Proof
end

