-- ==== Sys2Proof/Config.lean ====
section
/-! DEFINITION. What the specification leaves open and the model leaves free: the order in which two
events that fall within one tick are taken (R70, R107), and which of two transactions an answer belongs to (R161).
Log entries 1 and 37. -/

namespace Sys2Proof

/-- The k-th open choice among events that fall within one tick (R70, R107). It has no body: a proof
about the model holds for every order. Log entry 1. -/
opaque Config.firstTaken : Nat → Nat

/-- At the k-th open choice, whether an answer that could belong to the transaction on the port or to one that
the port has withdrawn belongs to the withdrawn one (R161). It has no body: a proof about the model holds for
both. Log entry 37. -/
opaque Config.answersWithdrawn : Nat → Bool

end Sys2Proof
end

