-- ==== Sys2Proof/Syntax.lean ====
section
/-! DEFINITION. The commands and events of the T816: one constructor per row of spec/opcode_table.json. -/

namespace Sys2Proof

/-- The eight registers of the register window (spec 12.5). -/
inductive Reg where
  | devid | devctl | devstat | cfgbase | post | intstat | tblo | tbhi
  deriving DecidableEq, Repr

/-- An admin command record less its opcode byte (spec 12.3): byte 1, the tag of bytes 2 and 3, and
bytes 4 to 31 with byte 4 in the low bits. -/
structure CommandRecord where
  /-- byte 1, which must be zero (R172) -/
  zero1 : BitVec 8
  /-- the host's cookie, echoed in the ACQ entry (R138) -/
  tag : BitVec 16
  /-- the parameter bytes 4 to 31 -/
  body : BitVec 224
  deriving DecidableEq, Repr

/-- The steps of the part, one constructor per row of the table. An event of a channel names its
channel; an admin command is the answer of an admin-record read that carries that command; the answer
of a read carries the bytes read. -/
inductive Instr where
  /-- HARD_RESET: the reset input; `pins` are the levels outside the part in the first tick after it. -/
  | hardReset (pins : BitVec 16)
  /-- RESET: a DEVCTL write of RESET. -/
  | reset
  /-- ENABLE: a DEVCTL write of ENABLE. -/
  | enable
  /-- RESTART_ADMIN: a DEVCTL write of RESTART_ADMIN. -/
  | restartAdmin
  /-- TBLO_READ: a host read of TBLO. -/
  | tbloRead
  /-- DEVSTAT_WRITE: a host write to DEVSTAT. -/
  | devstatWrite (value : Word32)
  /-- CFGBASE_WRITE: a host write to CFGBASE. -/
  | cfgbaseWrite (value : Word32)
  /-- INTSTAT_WRITE: a host write to INTSTAT. -/
  | intstatWrite (value : Word32)
  /-- IGNORED_REGISTER_WRITE: a register write that R174 ignores. -/
  | ignoredRegisterWrite (register : Reg) (value : Word32)
  /-- POST_STEP_TAIL: a POST of ring id 0 to 7. -/
  | postStepTail (channel : ChanId) (index : BitVec 16)
  /-- POST_CQ_HEAD: a POST of ring id 8 to 11. -/
  | postCqHead (ring : RingId) (index : BitVec 16)
  /-- POST_ADMIN_TAIL: a POST of ring id 12. -/
  | postAdminTail (index : BitVec 16)
  /-- POST_ACQ_HEAD: a POST of ring id 13. -/
  | postAcqHead (index : BitVec 16)
  /-- NOP: the admin read returns a NOP record. -/
  | nop (record : CommandRecord)
  /-- CQ_CREATE: the admin read returns a CQ_CREATE record. -/
  | cqCreate (record : CommandRecord)
  /-- CQ_DELETE: the admin read returns a CQ_DELETE record. -/
  | cqDelete (record : CommandRecord)
  /-- CQ_RESET: the admin read returns a CQ_RESET record. -/
  | cqReset (record : CommandRecord)
  /-- CQ_NOTICE: the admin read returns a CQ_NOTICE record. -/
  | cqNotice (record : CommandRecord)
  /-- CH_OPEN: the admin read returns a CH_OPEN record. -/
  | chOpen (record : CommandRecord)
  /-- CH_HALT: the admin read returns a CH_HALT record. -/
  | chHalt (record : CommandRecord)
  /-- CH_CLOSE: the admin read returns a CH_CLOSE record. -/
  | chClose (record : CommandRecord)
  /-- CH_RESUME: the admin read returns a CH_RESUME record. -/
  | chResume (record : CommandRecord)
  /-- CH_READ: the admin read returns a CH_READ record. -/
  | chRead (record : CommandRecord)
  /-- PAIR_JOIN: the admin read returns a PAIR_JOIN record. -/
  | pairJoin (record : CommandRecord)
  /-- PAIR_SPLIT: the admin read returns a PAIR_SPLIT record. -/
  | pairSplit (record : CommandRecord)
  /-- POS_SET: the admin read returns a POS_SET record. -/
  | posSet (record : CommandRecord)
  /-- LINE_PARK: the admin read returns a LINE_PARK record. -/
  | linePark (record : CommandRecord)
  /-- BAD_OPCODE: the admin read returns a record whose opcode names no command. -/
  | badOpcode (opcode : BitVec 8) (record : CommandRecord)
  /-- ADMIN_READ_ERROR: the bus answers the admin-record read with an error. -/
  | adminReadError
  /-- ACQ_WRITE_DONE: the bus answers the ACQ write with success. -/
  | acqWriteDone
  /-- ACQ_WRITE_ERROR: the bus answers the ACQ write with an error. -/
  | acqWriteError
  /-- CONFIG_READ_RETURN: the bus answers the configuration read with the 64 bytes of the block. -/
  | configReadReturn (block : BitVec 512)
  /-- CONFIG_READ_ERROR: the bus answers the configuration read with an error. -/
  | configReadError
  /-- STEP_READ_RETURN: the bus answers the step-record read with the 32 bytes of the record. -/
  | stepReadReturn (record : Slot)
  /-- STEP_READ_ERROR: the bus answers the step-record read with an error. -/
  | stepReadError
  /-- ENTRY_WRITE_DONE: the bus answers the completion-ring write with success. -/
  | entryWriteDone
  /-- ENTRY_WRITE_ERROR: the bus answers the completion-ring write with an error. -/
  | entryWriteError
  /-- DISCARDED_TRANSACTION_END: the transaction whose result is discarded ends. -/
  | discardedTransactionEnd
  /-- RESPONSE_LIMIT_EXPIRY: the port's response limit expires. -/
  | responseLimitExpiry
  /-- NOTICE_TIMER_EXPIRY: the hold-off timer of a notice context expires. -/
  | noticeTimerExpiry (context : NoticeId)
  /-- DEADLINE_EXPIRY: the admin unit's deadline timer expires. -/
  | deadlineExpiry
  /-- AT_TIME_SATISFIED: a waiting AT_TIME step of the channel reaches tick start_time - 1. -/
  | atTimeSatisfied (channel : ChanId)
  /-- MARK_TIMEOUT: the start_timeout of the channel's waiting ON_MARK step expires. -/
  | markTimeout (channel : ChanId)
  /-- CYCLE_END: the channel's output step completes a cycle. -/
  | cycleEnd (channel : ChanId)
  /-- OVERRANGE: the channel's PERIOD, WIDTH or PHASE counter reaches top. -/
  | overrange (channel : ChanId)
  /-- WINDOW_END: the channel's COUNT window ends. -/
  | windowEnd (channel : ChanId)
  /-- CAPTURE_EDGE: a capture or arming edge of the channel's PERIOD, WIDTH or PHASE step. -/
  | captureEdge (channel : ChanId)
  /-- WINDOW_EDGE: a polarity edge on B of the channel's COUNT step. -/
  | windowEdge (channel : ChanId)
  /-- COUNT_STEP: an edge on B of the channel's POSITION step. -/
  | countStep (channel : ChanId)
  /-- TICK: the current tick ends and the next begins; `pins` are the levels outside the part in the
  tick that begins. -/
  | tick (pins : BitVec 16)
  /-- POST_RING_ID_14_15: a POST of ring id 14, or of 15 where `id15` is set. -/
  | postRingId1415 (id15 : Bool) (index : BitVec 16)
  deriving DecidableEq, Repr

end Sys2Proof
end

