-- ==== Sys2Proof/WellFormed.lean ====
section
/-! DEFINITION. When a term of Instr is a command of the row it names. -/

namespace Sys2Proof

/-- The fourteen opcodes that name a command are 1 to 14 (spec 12.3, R137). -/
def knownOpcode (opcode : BitVec 8) : Bool :=
  decide (1 ≤ opcode.toNat ∧ opcode.toNat ≤ 14)

/-- A register write that changes nothing (R69, R129, R165, R169, R174): to a read-only register, a
DEVCTL write naming no command, or a write that sets no bit a field of DEVSTAT or INTSTAT names. -/
def ignoredWrite (register : Reg) (value : Word32) : Bool :=
  match register with
  | .devid | .tblo | .tbhi => true
  | .devctl => value.extractLsb' 0 2 == 0
  | .devstat => !value.getLsbD 8
  | .intstat => value.extractLsb' 0 5 == 0
  | .cfgbase | .post => false

/-- A term is well formed when it is a command of the row it names: BAD_OPCODE carries an opcode that
names no command, IGNORED_REGISTER_WRITE is a write that is ignored, and DEVSTAT_WRITE and
INTSTAT_WRITE write at least one bit that a field names. -/
def Instr.wellFormed : Instr → Bool
  | .badOpcode opcode _ => !knownOpcode opcode
  | .ignoredRegisterWrite register value => ignoredWrite register value
  | .devstatWrite value => !ignoredWrite .devstat value
  | .intstatWrite value => !ignoredWrite .intstat value
  | _ => true

end Sys2Proof
end

