-- ==== Sys2Proof/Decode.lean ====
section
/-! DEFINITION. How words of the host become commands: a register write (spec 12.5) and an admin record
(spec 12.3), with the encoder of each. The rows of spec/opcode_table.json give no bits, so the table
decoder answers none for every word. -/

namespace Sys2Proof

/-- The command a word spells by the table's bits: no row of the table gives any (log entry 2). -/
def decodeTableWord (_nbits _w : Nat) : Option Instr := none

/-- What the host puts before the part: a write of one register, or the 32 bytes of the admin record
that the part's admin read finds. -/
inductive HostWord where
  | write (register : Reg) (value : Word32)
  | adminRecord (bytes : Slot)
  deriving DecidableEq, Repr

/-- Split an admin record at its opcode byte (spec 12.3). -/
def CommandRecord.ofBytes (bytes : Slot) : CommandRecord :=
  { zero1 := bytes.extractLsb' 8 8
    tag := bytes.extractLsb' 16 16
    body := bytes.extractLsb' 32 224 }

/-- The 32 bytes of an admin record (spec 12.3). -/
def CommandRecord.toBytes (opcode : BitVec 8) (r : CommandRecord) : Slot :=
  r.body ++ r.tag ++ r.zero1 ++ opcode

/-- The command an admin record names by its opcode byte; any other opcode is BAD_OPCODE (R137). -/
def decodeAdminRecord (bytes : Slot) : Instr :=
  let r := CommandRecord.ofBytes bytes
  match (bytes.extractLsb' 0 8).toNat with
  | 1 => .nop r
  | 2 => .cqCreate r
  | 3 => .cqDelete r
  | 4 => .cqReset r
  | 5 => .cqNotice r
  | 6 => .chOpen r
  | 7 => .chHalt r
  | 8 => .chClose r
  | 9 => .chResume r
  | 10 => .chRead r
  | 11 => .pairJoin r
  | 12 => .pairSplit r
  | 13 => .posSet r
  | 14 => .linePark r
  | _ => .badOpcode (bytes.extractLsb' 0 8) r

/-- The command a POST write makes: ring id in bits 24 to 27, index in bits 0 to 15; the other bits
are ignored (spec 12.5, R170, R174). -/
def decodePost (value : Word32) : Instr :=
  let index := value.extractLsb' 0 16
  match (value.extractLsb' 24 4).toNat with
  | 0 => .postStepTail 0 index
  | 1 => .postStepTail 1 index
  | 2 => .postStepTail 2 index
  | 3 => .postStepTail 3 index
  | 4 => .postStepTail 4 index
  | 5 => .postStepTail 5 index
  | 6 => .postStepTail 6 index
  | 7 => .postStepTail 7 index
  | 8 => .postCqHead 0 index
  | 9 => .postCqHead 1 index
  | 10 => .postCqHead 2 index
  | 11 => .postCqHead 3 index
  | 12 => .postAdminTail index
  | 13 => .postAcqHead index
  | 14 => .postRingId1415 false index
  | _ => .postRingId1415 true index

/-- The command a register write makes (spec 12.5). -/
def decodeRegisterWrite (register : Reg) (value : Word32) : Instr :=
  if ignoredWrite register value then .ignoredRegisterWrite register value
  else match register with
    | .devctl =>
      match (value.extractLsb' 0 2).toNat with
      | 1 => .enable
      | 2 => .restartAdmin
      | _ => .reset
    | .devstat => .devstatWrite value
    | .cfgbase => .cfgbaseWrite value
    | .post => decodePost value
    | .intstat => .intstatWrite value
    | .devid | .tblo | .tbhi => .ignoredRegisterWrite register value

/-- The command that a host word makes. -/
def decodeHostWord : HostWord → Instr
  | .write register value => decodeRegisterWrite register value
  | .adminRecord bytes => decodeAdminRecord bytes

/-- The POST word of a ring id and an index (spec 12.5). -/
def postWord (ringId : BitVec 4) (index : BitVec 16) : Word32 :=
  (0 : BitVec 4) ++ ringId ++ (0 : BitVec 8) ++ index

/-- The host word of a command that the host writes; an event has none. -/
def encodeHostWord : Instr → Option HostWord
  | .reset => some (.write .devctl 3)
  | .enable => some (.write .devctl 1)
  | .restartAdmin => some (.write .devctl 2)
  | .devstatWrite value => some (.write .devstat value)
  | .cfgbaseWrite value => some (.write .cfgbase value)
  | .intstatWrite value => some (.write .intstat value)
  | .ignoredRegisterWrite register value => some (.write register value)
  | .postStepTail channel index => some (.write .post (postWord (BitVec.ofNat 4 channel) index))
  | .postCqHead ring index => some (.write .post (postWord (BitVec.ofNat 4 (8 + ring)) index))
  | .postAdminTail index => some (.write .post (postWord 12 index))
  | .postAcqHead index => some (.write .post (postWord 13 index))
  | .postRingId1415 id15 index => some (.write .post (postWord (if id15 then 15 else 14) index))
  | .nop r => some (.adminRecord (r.toBytes 1))
  | .cqCreate r => some (.adminRecord (r.toBytes 2))
  | .cqDelete r => some (.adminRecord (r.toBytes 3))
  | .cqReset r => some (.adminRecord (r.toBytes 4))
  | .cqNotice r => some (.adminRecord (r.toBytes 5))
  | .chOpen r => some (.adminRecord (r.toBytes 6))
  | .chHalt r => some (.adminRecord (r.toBytes 7))
  | .chClose r => some (.adminRecord (r.toBytes 8))
  | .chResume r => some (.adminRecord (r.toBytes 9))
  | .chRead r => some (.adminRecord (r.toBytes 10))
  | .pairJoin r => some (.adminRecord (r.toBytes 11))
  | .pairSplit r => some (.adminRecord (r.toBytes 12))
  | .posSet r => some (.adminRecord (r.toBytes 13))
  | .linePark r => some (.adminRecord (r.toBytes 14))
  | .badOpcode opcode r => some (.adminRecord (r.toBytes opcode))
  | .hardReset _ | .tbloRead | .adminReadError | .acqWriteDone | .acqWriteError
  | .configReadReturn _ | .configReadError | .stepReadReturn _ | .stepReadError | .entryWriteDone
  | .entryWriteError | .discardedTransactionEnd | .responseLimitExpiry | .noticeTimerExpiry _
  | .deadlineExpiry | .atTimeSatisfied _ | .markTimeout _ | .cycleEnd _ | .overrange _ | .windowEnd _
  | .captureEdge _ | .windowEdge _ | .countStep _ | .tick _ => none

end Sys2Proof
end

