-- ==== Sys2Proof/Machine/State.lean ====
section
/-! DEFINITION. The state of the T816 as plain data, block by block (spec 00 "The part in outline"), with
the value of each block after hard reset and device reset (R1, R83, R105, R111, R124, R133, R157, R164). -/

namespace Sys2Proof.Machine

/-! ### Step records -/

/-- The eleven step kinds (spec 12.1). -/
inductive Kind where
  | tone | strobe | pwm | pdm | chime | level | period | width | phase | count | position
  deriving DecidableEq, Repr

/-- A step record as read, every bit of its 32 bytes kept in the field spec 12.1 gives it. -/
structure StepRecord where
  /-- kind code, byte 0 -/
  kind : BitVec 8
  /-- start code, byte 1 bits 0 to 2 -/
  start : BitVec 3
  strict : Bool
  markSource : BitVec 4
  tag : BitVec 16
  prescale : BitVec 4
  aFunction : BitVec 2
  polarity : BitVec 2
  /-- the `end` bit: set for PARK, clear for HOLD -/
  endPark : Bool
  markStart : Bool
  markCycle : Bool
  markEnd : Bool
  quiet : Bool
  summary : Bool
  zeroPos : Bool
  /-- byte 5 bit 7, a position marked zero -/
  zeroBit : Bool
  count : BitVec 16
  strikes : BitVec 4
  /-- byte 8 bits 4 to 7, marked zero -/
  zeroHigh : BitVec 4
  /-- bytes 9 to 11, marked zero -/
  zeroMid : BitVec 24
  /-- top, or thr_a of a POSITION step -/
  top : Word32
  /-- cmp, or thr_b of a POSITION step -/
  cmp : Word32
  startTime : Ticks
  /-- bytes 26 and 27, marked zero -/
  zeroLow : BitVec 16
  startTimeout : Word32
  deriving DecidableEq, Repr

/-- A step in a window: the record and the ring index it was read from (R4). -/
structure Step where
  index : Nat
  record : StepRecord
  deriving DecidableEq, Repr

/-! ### Completion entries -/

/-- The status of a STEP_DONE (R102). -/
inductive DoneStatus where
  | done | superseded | preempted | halted | noSignal | badStep | lateSkipped | markTimeout
  deriving DecidableEq, Repr

/-- The summary accumulators min, max, sum and n (R53). -/
structure Stats where
  min : Nat
  max : Nat
  sum : Nat
  n : Nat
  deriving DecidableEq, Repr

/-- The flags of a STEP_DONE other than LONG, which is set exactly when it carries statistics (R102). -/
structure DoneFlags where
  late : Bool
  heldStart : Bool
  underrun : Bool
  forced : Bool
  deriving DecidableEq, Repr

/-- The fields of a STEP_DONE that the channel unit composes (R102). -/
structure DoneBody where
  tag : BitVec 16
  status : DoneStatus
  flags : DoneFlags
  value : Nat
  sqHead : Nat
  flushed : Nat
  /-- the fault reason is FETCH_ERROR -/
  fetchError : Bool
  firstTag : BitVec 16
  /-- the STATS slot of a long STEP_DONE (R53) -/
  stats : Option Stats
  deriving DecidableEq, Repr

/-- What an entry reports, by type (spec 7.1). -/
inductive EntryBody where
  | capture (tag : BitVec 16) (overrange unarmed : Bool) (value : Nat)
  | wrap (tag : BitVec 16) (down : Bool)
  | threshold (tag : BitVec 16) (whichB down : Bool) (value : Nat)
  | stepDone (fields : DoneBody)
  | flush (flushed : Nat) (firstTag : BitVec 16) (sqHead : Nat) (fetchError : Bool)
  | fault (sqHead : Nat)
  deriving DecidableEq, Repr

/-- An entry as composed: everything but seq and missed (R101). -/
structure Draft where
  channel : ChanId
  time : Ticks
  body : EntryBody
  deriving DecidableEq, Repr

/-- An entry as admitted to the pool: with the seq and missed it took at admission (R101, R106). -/
structure Entry where
  draft : Draft
  seq : BitVec 8
  missed : Nat
  deriving DecidableEq, Repr

/-- The kind of pool slot an entry occupies: one of the 24 shared ones, or its channel's reserved one. -/
inductive SlotKind where
  | shared | reserved
  deriving DecidableEq, Repr

/-- An occupied pool slot. -/
structure Staged where
  slot : SlotKind
  entry : Entry
  deriving DecidableEq, Repr

/-- The staging pool (R105, R110): per completion ring the occupied slots in admission order, and the
rotation pointer. A slot is empty when no list names it (log entry 3); the set of waiting offers is
read from the channel contexts (R108, log entry 4). -/
structure Pool where
  lists : Vector (List Staged) 4
  rotation : ChanId
  deriving DecidableEq, Repr

/-! ### Channel units -/

/-- Channel states (spec 1.2). -/
inductive ChState where
  | closed | idle | waiting | active | held | stopped | subordinate
  deriving DecidableEq, Repr

/-- Channel class (R85, R86). -/
inductive ChClass where
  | output | input
  deriving DecidableEq, Repr

/-- The drive of a line (spec 5.1). -/
inductive Drive where
  | none | low | high
  deriving DecidableEq, Repr

/-- The armed outcome of the armed step (spec 1.1). `due late held` is GOOD with its start due: `late` is
the LATE that R78 recorded, and `held` says that the start found the reserved slot occupied, which makes
the channel HELD (R12, R82). -/
inductive Armed where
  | none
  | good
  | due (late held : Bool)
  | removal (status : DoneStatus) (value : Nat) (time : Ticks)
  deriving DecidableEq, Repr

/-- The evaluation record (spec 4.6). -/
inductive Evaluation where
  | none
  | atTime (target : Ticks)
  | onMark (source : ChanId) (expiry : Option Ticks)
  deriving DecidableEq, Repr

/-- A halt request (spec 1.1): purpose CLOSE or HALT, mode BOUNDARY or IMMEDIATE, whether a deadline
applies, and the flushed count and first flushed tag gathered when it was taken. -/
structure HaltRequest where
  close : Bool
  boundary : Bool
  deadline : Bool
  flushed : Nat
  firstTag : BitVec 16
  deriving DecidableEq, Repr

/-- A channel context (spec 1.1), with the fetcher's two flags of the channel, the evaluation record of
spec 4.6, and the step's counts of R28, R43 and R60. -/
structure Channel where
  state : ChState
  cls : Option ChClass
  bLine : Option LineId
  aLine : Option LineId
  bound : Option RingId
  ringBase : Word32
  ringSize : Nat
  fetchIndex : Nat
  tail : Nat
  /-- the active step, the first element of the window where there is one (R4) -/
  active : Option Step
  /-- the elements of the window that are not active, in order; the first is the armed step (R4) -/
  queue : List Step
  armed : Armed
  evaluation : Evaluation
  startLate : Bool
  startHeld : Bool
  halt : Option HaltRequest
  fetchFault : Bool
  pendingReport : Option Draft
  counter : Nat
  phase : Nat
  position : Nat
  strikes : Nat
  acc : Stats
  seq : BitVec 8
  missed : Nat
  /-- the fetcher's fetch-in-flight flag and stale mark (R5, R6) -/
  fetchInFlight : Bool
  stale : Bool
  /-- completed cycles of an output step (R28) -/
  cycleCount : Nat
  /-- the cycle in progress is odd-numbered (R35); the cycle count stops, the parity does not -/
  oddCycle : Bool
  /-- OK captures of a measurement step (R43) -/
  okCount : Nat
  /-- the window edge count of a COUNT step (R60) -/
  edgeCount : Nat
  /-- the threshold-event count of a POSITION step (R64) -/
  thresholdCount : Nat
  /-- a PERIOD, WIDTH or PHASE step is armed (spec 3.1) -/
  intervalArmed : Bool
  /-- the model's own: the current tick is a tick of the active step (R70) -/
  running : Bool
  /-- the model's own: an event of the current tick has already set the counter for the next (R28, R46) -/
  counted : Bool
  /-- the model's own: the current tick's edge on B has been taken (R72) -/
  edgeTaken : Bool
  deriving DecidableEq, Repr

/-- The channel context after either reset (R1, R77; log entry 5 for the model's own fields). -/
def Channel.reset : Channel :=
  { state := .closed, cls := none, bLine := none, aLine := none, bound := none
    ringBase := 0, ringSize := 0, fetchIndex := 0, tail := 0
    active := none, queue := [], armed := .none, evaluation := .none
    startLate := false, startHeld := false, halt := none, fetchFault := false, pendingReport := none
    counter := 0, phase := 0, position := 0, strikes := 0
    acc := { min := 0, max := 0, sum := 0, n := 0 }
    seq := 0, missed := 0, fetchInFlight := false, stale := false
    cycleCount := 0, oddCycle := true, okCount := 0, edgeCount := 0, thresholdCount := 0
    intervalArmed := false, running := false, counted := false, edgeTaken := false }

/-! ### Line router -/

/-- A park level (R91). -/
inductive Park where
  | low | high | float
  deriving DecidableEq, Repr

/-- An entry of the line table (spec 5.1); `listeners` has one member flag per channel. -/
structure LineEntry where
  park : Park
  owner : Option ChanId
  listeners : Vector Bool 8
  drive : Drive
  deriving DecidableEq, Repr

/-- A line entry after either reset (R83). -/
def LineEntry.reset : LineEntry :=
  { park := .float, owner := none, listeners := Vector.replicate 8 false, drive := .none }

/-! ### Completion rings and notices -/

/-- Completion ring states (spec 7.3). -/
inductive RingState where
  | absent | ready | faulted
  deriving DecidableEq, Repr

/-- A completion ring context (spec 7.3). -/
structure Ring where
  state : RingState
  base : Word32
  size : Nat
  writeIndex : Nat
  phase : Bool
  hostHead : Nat
  outstanding : Nat
  inFlight : Bool
  halfWritten : Bool
  deriving DecidableEq, Repr

/-- A ring context after either reset (R111). -/
def Ring.reset : Ring :=
  { state := .absent, base := 0, size := 0, writeIndex := 0, phase := true, hostHead := 0
    outstanding := 0, inFlight := false, halfWritten := false }

/-- A notice context (spec 8.1). -/
structure Notice where
  enable : Bool
  threshold : Nat
  holdOff : Nat
  level : Nat
  unnoticed : Nat
  timer : Option Ticks
  pending : Bool
  deriving DecidableEq, Repr

/-- A notice context after either reset (R124). -/
def Notice.reset : Notice :=
  { enable := false, threshold := 1, holdOff := 0, level := 0, unnoticed := 0, timer := none
    pending := false }

/-! ### Admin unit -/

/-- Admin unit states (spec 9.2). -/
inductive UnitState where
  | idle | fetching | executing | waiting | posting | faulted
  deriving DecidableEq, Repr

/-- ACQ entry statuses (spec 9.3). -/
inductive AdminStatus where
  | ok | badOpcode | badParam | badState | lineBusy | deadline
  deriving DecidableEq, Repr

/-- The four result words of an ACQ entry (R138). -/
structure Results where
  word0 : Word32
  word1 : Word32
  word2 : Word32
  word3 : Word32
  deriving DecidableEq, Repr

/-- The command being carried out, with its opcode and the admin ring index it was read from. -/
structure Command where
  opcode : BitVec 8
  record : CommandRecord
  index : Nat
  deriving DecidableEq, Repr

/-- A composed ACQ entry (R138); its phase is set when the write is placed. -/
structure AcqEntry where
  opcode : BitVec 8
  status : AdminStatus
  tag : BitVec 16
  adminHead : Nat
  results : Results
  deriving DecidableEq, Repr

/-- What a WAITING command waits on (spec 9.1). -/
inductive WaitingOn where
  | nothing
  | channel (channel : ChanId)
  | ring (ring : RingId)
  deriving DecidableEq, Repr

/-- The admin unit's context (spec 9.1). -/
structure Admin where
  unit : UnitState
  ringBase : Word32
  ringSize : Nat
  fetchIndex : Nat
  tail : Nat
  acqBase : Word32
  acqSize : Nat
  acqWrite : Nat
  acqPhase : Bool
  acqHead : Nat
  acqOutstanding : Nat
  current : Option Command
  completion : Option AcqEntry
  deadline : Option Ticks
  waitingOn : WaitingOn
  deriving DecidableEq, Repr

/-- The admin unit after either reset (R133). -/
def Admin.reset : Admin :=
  { unit := .idle, ringBase := 0, ringSize := 0, fetchIndex := 0, tail := 0, acqBase := 0, acqSize := 0
    acqWrite := 0, acqPhase := true, acqHead := 0, acqOutstanding := 0, current := none
    completion := none, deadline := none, waitingOn := .nothing }

/-! ### Memory master port -/

/-- Which slot of an entry an entry write carries (R114, R116, R117). -/
inductive EntryPart where
  | single | longFirst | stats | pad
  deriving DecidableEq, Repr

/-- A transaction's kind and requester (R157). -/
inductive TxKind where
  | stepRead (channel : ChanId)
  | entryWrite (ring : RingId) (part : EntryPart)
  | acqWrite
  | adminRead
  | configRead
  deriving DecidableEq, Repr

/-- A transaction on the port (R157): its kind and requester, its address, the data of a write (0 for a
read), and the response limit. Its length follows from its kind. -/
structure Transaction where
  kind : TxKind
  address : Word32
  data : Slot
  limit : Ticks
  deriving DecidableEq, Repr

/-- The port (spec 10.1): BUSY while it holds a transaction. -/
structure Port where
  current : Option Transaction
  discard : Bool
  /-- the model's own: the kinds of the transactions that no longer stand on the port and whose answers have not
  arrived: withdrawn at their response limit (R161, log entry 37), or ended by a restart of the admin unit that was
  taken before their answer in its tick (R168, log entry 40) -/
  withdrawn : List TxKind
  writePointer : RingId
  fetchPointer : ChanId
  deriving DecidableEq, Repr

/-! ### Device -/

/-- Device states (spec 11). -/
inductive DevState where
  | disabled | starting | running | adminFault
  deriving DecidableEq, Repr

/-- Admin fault causes (spec 12.5). -/
inductive Cause where
  | none | configRead | configVersion | configAdminRing | configAcq | adminRead | acqWrite
  deriving DecidableEq, Repr

/-- The device state machine and the register window's own state (R164, R169, R170). -/
structure Device where
  state : DevState
  cause : Cause
  postError : Bool
  latchedId : BitVec 4
  cfgBase : Word32
  /-- the configuration read has been granted since STARTING was last entered (R158) -/
  configGranted : Bool
  deriving DecidableEq, Repr

/-! ### The whole part -/

/-- Everything an event can change: every block but the time base, the samplers and the pins. -/
structure Part where
  chans : Vector Channel 8
  lines : Vector LineEntry 16
  /-- the pair table, set for JOINED (R93) -/
  pairs : Vector Bool 4
  pool : Pool
  rings : Vector Ring 4
  notices : Vector Notice 5
  admin : Admin
  port : Port
  device : Device
  /-- the mark bus: the signals that carry a mark in the current tick (R74) -/
  marks : Vector Bool 8
  /-- the model's own: how many open choices of order have been made (log entry 1) -/
  choices : Nat
  deriving DecidableEq, Repr

/-- The part after hard reset (R164), CFGBASE 0 and the port IDLE. -/
def Part.reset : Part :=
  { chans := Vector.replicate 8 Channel.reset
    lines := Vector.replicate 16 LineEntry.reset
    pairs := Vector.replicate 4 false
    pool := { lists := Vector.replicate 4 [], rotation := 7 }
    rings := Vector.replicate 4 Ring.reset
    notices := Vector.replicate 5 Notice.reset
    admin := Admin.reset
    port := { current := none, discard := false, withdrawn := [], writePointer := 3, fetchPointer := 7 }
    device := { state := .disabled, cause := .none, postError := false, latchedId := 0, cfgBase := 0
                configGranted := false }
    marks := Vector.replicate 8 false
    choices := 0 }

/-- The whole machine: the time base and its read latch (R68, R69), the levels outside the part, the
samples of the current tick and of the one before (R71), the interrupt line as shown in the current
tick (R131), the word the last TBLO read returned, the blocks, and the commands that wait. -/
structure State where
  tb : Ticks
  tbhi : BitVec 16
  /-- the level outside the part at each pin in the current tick (R84) -/
  pins : BitVec 16
  sample : Vector Bool 16
  /-- the sample of the tick before; none after hard reset, until a tick has passed (R71) -/
  previous : Option (Vector Bool 16)
  irq : Bool
  /-- the model's own: the data the last TBLO_READ returned to the host (log entry 6) -/
  readData : Word32
  part : Part
  pending : List Instr
  deriving DecidableEq, Repr

/-- Why the machine could stop. No meaning of this model stops: the specification gives the part no event
at which it stops for good, and a bus error, a bad command or a bad step is reported and recovered. -/
inductive Fault where
  /-- Raised by nothing; it stands so that the outcome type has a reason to name. Safe. -/
  | stopped
  deriving DecidableEq, Repr

/-- Why a step is refused. -/
inductive Refusal where
  /-- The command has no meaning in the model yet; raised by exec's arm only. Safe. -/
  | notModelled (mnemonic : String)
  /-- The term is not a command of the row it names: a BAD_OPCODE whose opcode names a command, or an
  IGNORED_REGISTER_WRITE that is not ignored. No host can issue such a term. Safe. -/
  | notThisCommand (mnemonic : String)
  deriving DecidableEq, Repr

/-- The samples of pins that the part does not drive. -/
def samplePins (pins : BitVec 16) : Vector Bool 16 :=
  Vector.ofFn fun i => pins.getLsbD i

/-- The machine right after hard reset (R164), in tick 0, with every level outside the part low (log
entry 7), nothing read yet, and no command waiting. -/
def State.reset : State :=
  { tb := 0, tbhi := 0, pins := 0, sample := samplePins 0, previous := none, irq := false, readData := 0
    part := Part.reset, pending := [] }

end Sys2Proof.Machine
end

