-- ==== Sys2Proof/Machine/Operands.lean ====
section
/-! DEFINITION. The records the part reads and the entries it writes, byte by byte (spec 12.1 to 12.4). -/

namespace Sys2Proof.Machine

/-! ### Step records (spec 12.1) -/

/-- Read the 32 bytes of a step record (spec 12.1). -/
def StepRecord.ofBytes (w : Slot) : StepRecord :=
  { kind := w.extractLsb' 0 8
    start := w.extractLsb' 8 3
    strict := w.getLsbD 11
    markSource := w.extractLsb' 12 4
    tag := w.extractLsb' 16 16
    prescale := w.extractLsb' 32 4
    aFunction := w.extractLsb' 36 2
    polarity := w.extractLsb' 38 2
    endPark := w.getLsbD 40
    markStart := w.getLsbD 41
    markCycle := w.getLsbD 42
    markEnd := w.getLsbD 43
    quiet := w.getLsbD 44
    summary := w.getLsbD 45
    zeroPos := w.getLsbD 46
    zeroBit := w.getLsbD 47
    count := w.extractLsb' 48 16
    strikes := w.extractLsb' 64 4
    zeroHigh := w.extractLsb' 68 4
    zeroMid := w.extractLsb' 72 24
    top := w.extractLsb' 96 32
    cmp := w.extractLsb' 128 32
    startTime := w.extractLsb' 160 48
    zeroLow := w.extractLsb' 208 16
    startTimeout := w.extractLsb' 224 32 }

/-- The 32 bytes of a step record (spec 12.1). -/
def StepRecord.toBytes (r : StepRecord) : Slot :=
  r.startTimeout ++ r.zeroLow ++ r.startTime ++ r.cmp ++ r.top ++ r.zeroMid ++ r.zeroHigh ++ r.strikes
    ++ r.count ++ BitVec.ofBool r.zeroBit ++ BitVec.ofBool r.zeroPos ++ BitVec.ofBool r.summary
    ++ BitVec.ofBool r.quiet ++ BitVec.ofBool r.markEnd ++ BitVec.ofBool r.markCycle
    ++ BitVec.ofBool r.markStart ++ BitVec.ofBool r.endPark ++ r.polarity ++ r.aFunction ++ r.prescale
    ++ r.tag ++ r.markSource ++ BitVec.ofBool r.strict ++ r.start ++ r.kind

/-- The kind a kind code names; 0 and 12 to 255 name none (spec 12.1, R171). -/
def StepRecord.kindOf (r : StepRecord) : Option Kind :=
  match r.kind.toNat with
  | 1 => some .tone
  | 2 => some .strobe
  | 3 => some .pwm
  | 4 => some .pdm
  | 5 => some .chime
  | 6 => some .level
  | 7 => some .period
  | 8 => some .width
  | 9 => some .phase
  | 10 => some .count
  | 11 => some .position
  | _ => none

/-- The output kinds are TONE, STROBE, PWM, PDM, CHIME and LEVEL; the others measure (spec 00). -/
def Kind.isOutput : Kind → Bool
  | .tone | .strobe | .pwm | .pdm | .chime | .level => true
  | .period | .width | .phase | .count | .position => false

/-- PERIOD, WIDTH and PHASE measure intervals (spec 3.1). -/
def Kind.isInterval : Kind → Bool
  | .period | .width | .phase => true
  | .tone | .strobe | .pwm | .pdm | .chime | .level | .count | .position => false

/-- The step is of kind `k`. -/
def StepRecord.isKind (r : StepRecord) (k : Kind) : Bool := r.kindOf == some k

/-- The step is of an output kind. -/
def StepRecord.isOutput (r : StepRecord) : Bool :=
  match r.kindOf with
  | some k => k.isOutput
  | none => false

/-- The step is a PERIOD, WIDTH or PHASE step. -/
def StepRecord.isInterval (r : StepRecord) : Bool :=
  match r.kindOf with
  | some k => k.isInterval
  | none => false

/-- start is CHAIN (spec 12.1). -/
def StepRecord.isChain (r : StepRecord) : Bool := r.start == 0

/-- start is IMMEDIATE (spec 12.1). -/
def StepRecord.isImmediate (r : StepRecord) : Bool := r.start == 1

/-- start is AT_TIME (spec 12.1). -/
def StepRecord.isAtTime (r : StepRecord) : Bool := r.start == 2

/-- start is ON_MARK (spec 12.1). -/
def StepRecord.isOnMark (r : StepRecord) : Bool := r.start == 3

/-- A count of 0 makes a step continuous (spec 00, R18). -/
def StepRecord.continuous (r : StepRecord) : Bool := r.count == 0

/-- The polarity field names HIGH or RISE (spec 12.1). -/
def StepRecord.polarityHigh (r : StepRecord) : Bool := r.polarity == 1

/-- 2^p ticks make a prescaled tick (spec 00). -/
def StepRecord.prescaled (r : StepRecord) : Nat := 2 ^ r.prescale.toNat

/-- The channel that mark_source names (R77). -/
def StepRecord.source (r : StepRecord) : ChanId :=
  ⟨r.markSource.toNat % 8, Nat.mod_lt _ (by decide)⟩

/-! ### Completion entries (spec 12.2) -/

/-- The fields of a completion ring slot (spec 12.2); a field that a type does not carry is 0 (R173). -/
structure SlotImage where
  type : BitVec 4
  channel : BitVec 8 := 0
  seq : BitVec 8 := 0
  missed : BitVec 8 := 0
  tag : BitVec 16 := 0
  status : BitVec 8 := 0
  flags : BitVec 8 := 0
  time : Ticks := 0
  direction : BitVec 8 := 0
  which : BitVec 8 := 0
  value : Word32 := 0
  sqHead : BitVec 16 := 0
  flushed : BitVec 8 := 0
  reason : BitVec 8 := 0
  firstTag : BitVec 16 := 0
  deriving DecidableEq, Repr

/-- The 32 bytes of a slot with its phase bit (spec 12.2, R115). -/
def SlotImage.toBytes (i : SlotImage) (phase : Bool) : Slot :=
  (0 : BitVec 48) ++ i.firstTag ++ i.reason ++ i.flushed ++ i.sqHead ++ i.value ++ i.which ++ i.direction
    ++ i.time ++ i.flags ++ i.status ++ i.tag ++ i.missed ++ i.seq ++ i.channel
    ++ BitVec.ofBool phase ++ (0 : BitVec 3) ++ i.type

/-- The status code of a STEP_DONE (spec 12.2). -/
def DoneStatus.code : DoneStatus → BitVec 8
  | .done => 0
  | .superseded => 1
  | .preempted => 2
  | .halted => 3
  | .noSignal => 4
  | .badStep => 5
  | .lateSkipped => 6
  | .markTimeout => 7

/-- The flags byte of a STEP_DONE: LATE, HELD_START, UNDERRUN, FORCED, LONG (spec 12.2). -/
def DoneBody.flagsByte (b : DoneBody) : BitVec 8 :=
  (0 : BitVec 3) ++ BitVec.ofBool b.stats.isSome ++ BitVec.ofBool b.flags.forced
    ++ BitVec.ofBool b.flags.underrun ++ BitVec.ofBool b.flags.heldStart ++ BitVec.ofBool b.flags.late

/-- The direction code: 0 UP, 1 DOWN (spec 12.2). -/
def directionCode (down : Bool) : BitVec 8 := if down then 1 else 0

/-- The fault reason code: 0 none, 1 FETCH_ERROR (spec 12.2). -/
def reasonCode (fetchError : Bool) : BitVec 8 := if fetchError then 1 else 0

/-- The fields of an entry's first slot (spec 12.2). -/
def Entry.image (e : Entry) : SlotImage :=
  let channel := BitVec.ofNat 8 e.draft.channel
  let missed := BitVec.ofNat 8 e.missed
  match e.draft.body with
  | .capture tag overrange unarmed value =>
    { type := 1, channel := channel, seq := e.seq, missed := missed, tag := tag, time := e.draft.time
      status := if overrange then 1 else 0, flags := if unarmed then 0x20 else 0
      value := BitVec.ofNat 32 value }
  | .stepDone b =>
    { type := 2, channel := channel, seq := e.seq, missed := missed, tag := b.tag, time := e.draft.time
      status := b.status.code, flags := b.flagsByte, value := BitVec.ofNat 32 b.value
      sqHead := BitVec.ofNat 16 b.sqHead, flushed := BitVec.ofNat 8 b.flushed
      reason := reasonCode b.fetchError, firstTag := b.firstTag }
  | .wrap tag down =>
    { type := 4, channel := channel, seq := e.seq, missed := missed, tag := tag, time := e.draft.time
      direction := directionCode down }
  | .threshold tag whichB down value =>
    { type := 5, channel := channel, seq := e.seq, missed := missed, tag := tag, time := e.draft.time
      direction := directionCode down, which := if whichB then 1 else 0, value := BitVec.ofNat 32 value }
  | .flush flushed firstTag sqHead fetchError =>
    { type := 6, channel := channel, seq := e.seq, missed := missed, time := e.draft.time
      sqHead := BitVec.ofNat 16 sqHead, flushed := BitVec.ofNat 8 flushed
      reason := reasonCode fetchError, firstTag := firstTag }
  | .fault sqHead =>
    { type := 7, channel := channel, seq := e.seq, missed := missed, time := e.draft.time
      sqHead := BitVec.ofNat 16 sqHead, reason := 1 }

/-- The STATS slot's 32 bytes (spec 12.2). -/
def Stats.toBytes (s : Stats) (phase : Bool) : Slot :=
  (0 : BitVec 64) ++ BitVec.ofNat 64 s.sum ++ BitVec.ofNat 32 s.n ++ BitVec.ofNat 32 s.max
    ++ BitVec.ofNat 32 s.min ++ (0 : BitVec 24) ++ BitVec.ofBool phase ++ (0 : BitVec 3) ++ (3 : BitVec 4)

/-- A PAD slot's 32 bytes: type 8 and the phase bit (spec 12.2, R117). -/
def padBytes (phase : Bool) : Slot := SlotImage.toBytes { type := 8 } phase

/-- The statistics of a long STEP_DONE; none for an entry of one slot (R53, R101). -/
def Entry.stats (e : Entry) : Option Stats :=
  match e.draft.body with
  | .stepDone b => b.stats
  | .capture .. | .wrap .. | .threshold .. | .flush .. | .fault .. => none

/-- The entry is a long STEP_DONE and takes two ring slots (R116). -/
def Entry.isLong (e : Entry) : Bool := e.stats.isSome

/-- The bytes an entry write carries for one part of an entry (R114, R116, R117). -/
def Entry.partBytes (e : Entry) (part : EntryPart) (phase : Bool) : Slot :=
  match part with
  | .single | .longFirst => e.image.toBytes phase
  | .stats =>
    match e.stats with
    | some s => s.toBytes phase
    | none => 0
  | .pad => padBytes phase

/-! ### Admin records and ACQ entries (spec 12.3) -/

end Sys2Proof.Machine

namespace Sys2Proof

/-- Byte `n` of an admin record, for n from 4 to 31. -/
def CommandRecord.byte (r : CommandRecord) (n : Nat) : Nat :=
  (r.body.extractLsb' (8 * (n - 4)) 8).toNat

/-- The 16-bit field at bytes n and n + 1. -/
def CommandRecord.half (r : CommandRecord) (n : Nat) : Nat :=
  (r.body.extractLsb' (8 * (n - 4)) 16).toNat

/-- The 32-bit field at bytes n to n + 3. -/
def CommandRecord.word (r : CommandRecord) (n : Nat) : Word32 :=
  r.body.extractLsb' (8 * (n - 4)) 32

/-- Bit 0 of byte n. -/
def CommandRecord.bit (r : CommandRecord) (n : Nat) : Bool :=
  r.body.getLsbD (8 * (n - 4))

/-- The bits of bytes `first` to `last` of an admin record, as a mask of bytes 4 to 31. -/
def byteSpan (first last : Nat) : BitVec 224 :=
  BitVec.ofNat 224 ((2 ^ (8 * (last + 1 - first)) - 1) * 2 ^ (8 * (first - 4)))

/-- Bit 0 of byte `n`, as a mask of bytes 4 to 31. -/
def lowBitOf (n : Nat) : BitVec 224 := BitVec.ofNat 224 (2 ^ (8 * (n - 4)))

/-- The parameter bits a command's row names, as a mask of bytes 4 to 31 (spec 12.3, R172). -/
def namedBits (opcode : Nat) : BitVec 224 :=
  match opcode with
  | 2 => byteSpan 4 4 ||| lowBitOf 5 ||| byteSpan 6 15
  | 3 => byteSpan 4 4
  | 4 => byteSpan 4 4 ||| lowBitOf 5 ||| byteSpan 8 11
  | 5 => byteSpan 4 4 ||| lowBitOf 5 ||| byteSpan 6 7 ||| byteSpan 14 15
  | 6 => byteSpan 4 7 ||| lowBitOf 8 ||| byteSpan 9 17
  | 7 => byteSpan 4 5 ||| byteSpan 8 11
  | 8 => byteSpan 4 5 ||| byteSpan 8 11
  | 9 => byteSpan 4 4 ||| byteSpan 16 17
  | 10 => byteSpan 4 4
  | 11 => byteSpan 4 4
  | 12 => byteSpan 4 4
  | 13 => byteSpan 4 4 ||| byteSpan 8 11
  | 14 => byteSpan 4 5
  | _ => 0

/-- Byte 1 and every parameter bit the command does not name are 0 (R172). -/
def CommandRecord.zerosHold (r : CommandRecord) (opcode : Nat) : Bool :=
  r.zero1 == 0 && (r.body &&& ~~~(namedBits opcode)) == 0

/-- A channel parameter, where it lies in 0 to 7. -/
def CommandRecord.channel (r : CommandRecord) : Option ChanId :=
  if h : r.byte 4 < 8 then some ⟨r.byte 4, h⟩ else none

end Sys2Proof

namespace Sys2Proof.Machine

/-- A completion ring number, where it lies in 0 to 3. -/
def ringNumber (n : Nat) : Option RingId :=
  if h : n < 4 then some ⟨n, h⟩ else none

/-- A line number, where it lies in 0 to 15. -/
def lineNumber (n : Nat) : Option LineId :=
  if h : n < 16 then some ⟨n, h⟩ else none

/-- A power of two from `low` to `high`, both powers of two (R143, R147, R166). -/
def legalSize (low high n : Nat) : Bool :=
  decide (low ≤ n ∧ n ≤ high) && (n &&& (n - 1)) == 0

/-- A ring base is a multiple of 32 and the whole ring lies below 2^32 (spec 9.5, R166). -/
def legalBase (base : Word32) (size : Nat) : Bool :=
  base.toNat % 32 == 0 && decide (base.toNat + size * 32 ≤ 2 ^ 32)

/-- The status code of an ACQ entry (spec 12.3). -/
def AdminStatus.code : AdminStatus → BitVec 8
  | .ok => 0
  | .badOpcode => 1
  | .badParam => 2
  | .badState => 3
  | .lineBusy => 4
  | .deadline => 5

/-- The 32 bytes of an ACQ entry with its phase bit (spec 12.3). -/
def AcqEntry.toBytes (e : AcqEntry) (phase : Bool) : Slot :=
  (0 : BitVec 64) ++ e.results.word3 ++ e.results.word2 ++ e.results.word1 ++ e.results.word0
    ++ BitVec.ofNat 16 e.adminHead ++ e.tag ++ BitVec.ofBool phase ++ (0 : BitVec 7) ++ (0 : BitVec 8)
    ++ e.status.code ++ e.opcode

/-- Result words of zeros (R138). -/
def Results.zero : Results := { word0 := 0, word1 := 0, word2 := 0, word3 := 0 }

/-- Result words with word 0 given and the others 0. -/
def Results.one (n : Nat) : Results :=
  { word0 := BitVec.ofNat 32 n, word1 := 0, word2 := 0, word3 := 0 }

/-- A halt report as CH_HALT and CH_CLOSE return it: HALTED or FLUSH, its flushed count, its sq_head (R148). -/
structure HaltReport where
  isFlush : Bool
  flushed : Nat
  sqHead : Nat
  deriving DecidableEq, Repr

/-- The result words of a halt report (R148, R172): 1 HALTED, 2 FLUSH. -/
def HaltReport.words (h : HaltReport) : Results :=
  { word0 := if h.isFlush then 2 else 1
    word1 := BitVec.ofNat 32 h.flushed
    word2 := BitVec.ofNat 32 h.sqHead
    word3 := 0 }

/-- The result words of report NONE (R148). -/
def noReportWords (sqHead : Nat) : Results :=
  { word0 := 0, word1 := 0, word2 := BitVec.ofNat 32 sqHead, word3 := 0 }

/-! ### The configuration block (spec 12.4) -/

/-- The named fields of a configuration block. -/
structure ConfigBlock where
  version : Nat
  adminBase : Word32
  adminSize : Nat
  acqBase : Word32
  acqSize : Nat
  /-- every byte outside the named fields is 0 -/
  zerosHold : Bool
  deriving DecidableEq, Repr

/-- Read the 64 bytes of a configuration block (spec 12.4). -/
def ConfigBlock.ofBytes (w : BitVec 512) : ConfigBlock :=
  { version := (w.extractLsb' 0 16).toNat
    adminBase := w.extractLsb' 32 32
    adminSize := (w.extractLsb' 64 16).toNat
    acqBase := w.extractLsb' 96 32
    acqSize := (w.extractLsb' 128 16).toNat
    zerosHold := w.extractLsb' 16 16 == 0 && w.extractLsb' 80 16 == 0 && w.extractLsb' 144 368 == 0 }

/-- The cause of the first check of R166 that the block fails; none where it passes every check. -/
def ConfigBlock.firstFailure (b : ConfigBlock) : Option Cause :=
  if b.version ≠ 1 || !b.zerosHold then some .configVersion
  else if !(legalSize 4 256 b.adminSize && legalBase b.adminBase b.adminSize) then some .configAdminRing
  else if !(legalSize 4 256 b.acqSize && legalBase b.acqBase b.acqSize) then some .configAcq
  else none

end Sys2Proof.Machine
end

