-- ==== Sys2Proof/Machine/Flags.lean ====
section
/-! DEFINITION. The status words that the part computes from its state: INTSTAT and TOP, the interrupt
condition, DEVSTAT, the other registers as a read returns them, and the CH_READ snapshot. -/

namespace Sys2Proof.Machine

/-- The ring is FAULTED (its fault bit in INTSTAT, R129). -/
def Ring.isFaulted (r : Ring) : Bool := r.state == .faulted

/-- Some completion ring is FAULTED: the ring fault summary of DEVSTAT (R169). -/
def Part.anyFaulted (p : Part) : Bool :=
  p.rings[0].isFaulted || p.rings[1].isFaulted || p.rings[2].isFaulted || p.rings[3].isFaulted

/-- A context that reaches TOP and the interrupt line: pending and enabled (R130, R131). -/
def Notice.shown (n : Notice) : Bool := n.pending && n.enable

/-- The better of TOP's candidate so far and context `i`: the higher level, the lower id among equals. -/
def betterTop (p : Part) (best : Option NoticeId) (i : NoticeId) : Option NoticeId :=
  if p.notices[i].shown then
    match best with
    | none => some i
    | some b => if p.notices[b].level < p.notices[i].level then some i else some b
  else best

/-- The context TOP names: pending and enabled, highest level, lowest ring id among equals (R130). -/
def Part.topContext (p : Part) : Option NoticeId :=
  ([0, 1, 2, 3, 4] : List NoticeId).foldl (betterTop p) none

/-- TOP: 7 where no context is both pending and enabled (R130). -/
def Part.top (p : Part) : BitVec 3 :=
  match p.topContext with
  | some i => BitVec.ofNat 3 i
  | none => 7

/-- The interrupt condition (R131). -/
def Part.interrupt (p : Part) : Bool :=
  p.notices[0].shown || p.notices[1].shown || p.notices[2].shown || p.notices[3].shown
    || p.notices[4].shown || p.anyFaulted || p.device.state == .adminFault

/-- The value a read of INTSTAT returns (R129, spec 12.5). -/
def Part.intstat (p : Part) : Word32 :=
  (0 : BitVec 13) ++ p.top ++ (0 : BitVec 4)
    ++ BitVec.ofBool p.rings[3].isFaulted ++ BitVec.ofBool p.rings[2].isFaulted
    ++ BitVec.ofBool p.rings[1].isFaulted ++ BitVec.ofBool p.rings[0].isFaulted
    ++ (0 : BitVec 3) ++ BitVec.ofBool p.notices[4].pending ++ BitVec.ofBool p.notices[3].pending
    ++ BitVec.ofBool p.notices[2].pending ++ BitVec.ofBool p.notices[1].pending
    ++ BitVec.ofBool p.notices[0].pending

/-- The device state code (spec 12.5). -/
def DevState.code : DevState → BitVec 2
  | .disabled => 0
  | .starting => 1
  | .running => 2
  | .adminFault => 3

/-- The admin fault cause code (spec 12.5). -/
def Cause.code : Cause → BitVec 4
  | .none => 0
  | .configRead => 1
  | .configVersion => 2
  | .configAdminRing => 3
  | .configAcq => 4
  | .adminRead => 5
  | .acqWrite => 6

/-- The value a read of DEVSTAT returns (R169, spec 12.5). -/
def Part.devstat (p : Part) : Word32 :=
  (0 : BitVec 15) ++ BitVec.ofBool p.anyFaulted ++ p.device.latchedId ++ (0 : BitVec 3)
    ++ BitVec.ofBool p.device.postError ++ p.device.cause.code ++ (0 : BitVec 2) ++ p.device.state.code

/-- DEVID: vendor 0x57, part 0x0816, revision 1 (R169, spec 12.5). -/
def devidWord : Word32 := 0x57081601

/-- The value a host read of a register returns (spec 12.5, R69, R129, R165, R169, R174). A read of TBLO
also loads the TBHI latch, which is the command TBLO_READ; every other read changes nothing. -/
def State.readRegister (s : State) : Reg → Word32
  | .devid => devidWord
  | .devctl => 0
  | .devstat => s.part.devstat
  | .cfgbase => s.part.device.cfgBase
  | .post => 0
  | .intstat => s.part.intstat
  | .tblo => s.tb.extractLsb' 0 32
  | .tbhi => (0 : BitVec 16) ++ s.tbhi

/-- The channel state code of CH_READ (R172). -/
def ChState.code : ChState → BitVec 3
  | .closed => 0
  | .idle => 1
  | .waiting => 2
  | .active => 3
  | .held => 4
  | .stopped => 5
  | .subordinate => 6

/-- The class code of CH_READ (R172). -/
def classCode : Option ChClass → BitVec 2
  | none => 0
  | some .output => 1
  | some .input => 2

/-- The number of elements of the window, the active step included (R4). -/
def Channel.depth (ch : Channel) : Nat :=
  (match ch.active with | some _ => 1 | none => 0) + ch.queue.length

/-- The window as one ordered list, the active step first (R4). -/
def Channel.window (ch : Channel) : List Step := ch.active.toList ++ ch.queue

/-- The CH_READ snapshot of a channel (R153, R172); `reserved` says its reserved slot is occupied. -/
def Channel.snapshot (ch : Channel) (reserved : Bool) : Results :=
  let kind : BitVec 4 := match ch.active with | some e => e.record.kind.setWidth 4 | none => 0
  let tag : BitVec 16 := match ch.active with | some e => e.record.tag | none => 0
  { word0 := BitVec.ofNat 10 ch.tail ++ BitVec.ofNat 10 ch.fetchIndex ++ BitVec.ofNat 3 ch.depth ++ kind
      ++ classCode ch.cls ++ ch.state.code
    word1 := (0 : BitVec 3) ++ BitVec.ofBool ch.fetchInFlight ++ BitVec.ofBool ch.halt.isSome
      ++ BitVec.ofBool ch.fetchFault ++ BitVec.ofBool reserved ++ BitVec.ofBool ch.pendingReport.isSome
      ++ ch.seq ++ tag
    word2 := BitVec.ofNat 32 ch.counter
    word3 := BitVec.ofNat 32 ch.position }

end Sys2Proof.Machine
end

