-- ==== Sys2Proof/Machine/Levels.lean ====
section
/-! DEFINITION. The levels of lines: what each output kind gives B and A (R31, R35 to R41), what a line shows
(R84), edges (R72), and the gates of the interval kinds (R44). -/

namespace Sys2Proof.Machine

/-- The w-bit reversal of n: bit i is bit w - 1 - i of n (R38). -/
def reverseBits : Nat → Nat → Nat
  | 0, _ => 0
  | w + 1, n => (n % 2) * 2 ^ w + reverseBits w (n / 2)

/-- The w from 1 to `limit` with top = 2^w - 1, where there is one (R39). -/
def pdmWidth (top : Nat) : Nat → Option Nat
  | 0 => none
  | w + 1 => if top + 1 = 2 ^ (w + 1) then some (w + 1) else pdmWidth top w

/-- The level the kind gives B in a tick with this counter, in an odd-numbered cycle where `odd` is set:
TONE R35, STROBE R36, PWM R37, PDM R38, CHIME R40, LEVEL R41. -/
def StepRecord.bLevel (r : StepRecord) (counter : Nat) (odd : Bool) : Bool :=
  match r.kindOf with
  | some .tone => odd
  | some .chime => odd
  | some .strobe => counter == r.cmp.toNat
  | some .pwm => decide (counter < r.cmp.toNat)
  | some .pdm =>
    match pdmWidth r.top.toNat 32 with
    | some w => decide (reverseBits w counter < r.cmp.toNat)
    | none => false
  | some .level => r.polarityHigh
  | some .period | some .width | some .phase | some .count | some .position | none => false

/-- A level as a drive. -/
def Drive.ofLevel (high : Bool) : Drive := if high then .high else .low

/-- The drive of A in a tick (R31, R87): NONE under OFF, B's level under COPY, its opposite under INVERT,
and under ENVELOPE high in the step's first prescaled tick only. -/
def StepRecord.aDrive (r : StepRecord) (counter cycles : Nat) (b : Bool) : Drive :=
  match r.aFunction.toNat with
  | 0 => .none
  | 1 => .ofLevel b
  | 2 => .ofLevel (!b)
  | _ => .ofLevel (counter == 0 && cycles == 0)

/-- Change the entry of a line, where the claim names one. -/
def updateLine (lines : Vector LineEntry 16) (line : Option LineId) (f : LineEntry → LineEntry) :
    Vector LineEntry 16 :=
  match line with
  | none => lines
  | some i => lines.set i (f lines[i])

/-- The drive of a claimed line; NONE where there is none. -/
def driveOf (lines : Vector LineEntry 16) (line : Option LineId) : Drive :=
  match line with
  | none => .none
  | some i => lines[i].drive

/-- Set the drives of a channel's B and A lines. -/
def setDrives (lines : Vector LineEntry 16) (ch : Channel) (b a : Drive) : Vector LineEntry 16 :=
  updateLine (updateLine lines ch.bLine fun l => { l with drive := b }) ch.aLine fun l =>
    { l with drive := a }

/-- The drives a channel's lines take in a tick of its active output step (R87); a measurement step and
a channel with nothing active set none. -/
def driveLines (lines : Vector LineEntry 16) (ch : Channel) : Vector LineEntry 16 :=
  match ch.active with
  | none => lines
  | some e =>
    if e.record.isOutput then
      let b := e.record.bLevel ch.counter ch.oddCycle
      setDrives lines ch (.ofLevel b) (e.record.aDrive ch.counter ch.cycleCount b)
    else lines

/-- What a line shows, given the level outside the part at its pin (R84). -/
def LineEntry.shows (l : LineEntry) (pin : Bool) : Bool :=
  match l.owner, l.drive with
  | some _, .low => false
  | some _, .high => true
  | _, _ =>
    match l.park with
    | .low => false
    | .high => true
    | .float => pin

/-- The sample of every line in a tick (R71, R84). -/
def sampleLines (lines : Vector LineEntry 16) (pins : BitVec 16) : Vector Bool 16 :=
  Vector.ofFn fun i => lines[i].shows (pins.getLsbD i)

/-- What a channel unit reads from the time base and the samplers: TB, the sample of the current tick and
that of the tick before. -/
structure Clock where
  tb : Ticks
  sample : Vector Bool 16
  previous : Option (Vector Bool 16)
  deriving DecidableEq, Repr

/-- The clock of a state. -/
def State.clock (s : State) : Clock := { tb := s.tb, sample := s.sample, previous := s.previous }

/-- The sample of a claimed line in the current tick. -/
def Clock.level (k : Clock) (line : Option LineId) : Bool :=
  match line with
  | some i => k.sample[i]
  | none => false

/-- The sample of a claimed line in the tick before. -/
def Clock.before (k : Clock) (line : Option LineId) : Bool :=
  match line, k.previous with
  | some i, some v => v[i]
  | _, _ => false

/-- A comparison with the tick before is possible: not in the first tick after hard reset (R71). -/
def Clock.compares (k : Clock) : Bool := k.previous.isSome

/-- The line rises in the current tick (R72). -/
def Clock.rises (k : Clock) (line : Option LineId) : Bool :=
  k.compares && !k.before line && k.level line

/-- The line falls in the current tick (R72). -/
def Clock.falls (k : Clock) (line : Option LineId) : Bool :=
  k.compares && k.before line && !k.level line

/-- An edge of the step's polarity: a rise for RISE or HIGH, a fall for FALL or LOW. -/
def Clock.edgeOf (k : Clock) (r : StepRecord) (line : Option LineId) : Bool :=
  if r.polarityHigh then k.rises line else k.falls line

/-- An edge against the step's polarity. -/
def Clock.edgeAgainst (k : Clock) (r : StepRecord) (line : Option LineId) : Bool :=
  if r.polarityHigh then k.falls line else k.rises line

/-- The current tick is gated for the interval kinds (R44). -/
def Channel.gated (ch : Channel) (k : Clock) (r : StepRecord) : Bool :=
  match r.kindOf with
  | some .period => true
  | some .width => k.level ch.bLine == r.polarityHigh
  | some .phase => k.level ch.aLine && !k.level ch.bLine
  | _ => false

/-- An edge of the current tick that takes a capture from an armed step, or arms an unarmed one: PERIOD
R56, WIDTH R57, PHASE R59. -/
def Channel.intervalEdge (ch : Channel) (k : Clock) (r : StepRecord) : Bool :=
  match r.kindOf with
  | some .period => k.edgeOf r ch.bLine
  | some .width => if ch.intervalArmed then k.edgeAgainst r ch.bLine else k.edgeOf r ch.bLine
  | some .phase => k.rises ch.bLine
  | _ => false

end Sys2Proof.Machine
end

