-- ==== Sys2Proof/Machine/Validate.lean ====
section
/-! DEFINITION. Validation of a step at its arming: the nine checks of R9 with the ranges of R30, R39 and R50
at the channel's width (R97, R98) and the encodings of R171. -/

namespace Sys2Proof.Machine

/-- The greatest top of every kind but PDM at a width (R97): 65535, or 2^32 - 2 for a joined even channel. -/
def greatestTop (wide : Bool) : Nat := if wide then 4294967294 else 65535

/-- The greatest counter, position, threshold and COUNT saturation value at a width (R97). -/
def greatestValue (wide : Bool) : Nat := if wide then 4294967295 else 65535

/-- Check 2: the kind is not of the channel's class. -/
def failsClass (ch : Channel) (k : Kind) : Bool :=
  k.isOutput != (ch.cls == some .output)

/-- Check 3: the step needs an a_line that the channel does not have. -/
def failsLine (ch : Channel) (k : Kind) (r : StepRecord) : Bool :=
  (k == .phase || k == .position || (k.isOutput && r.aFunction != 0)) && ch.aLine.isNone

/-- Check 4 on top, or thr_a: out of range at the width. The top of a PDM step is judged by check 6. -/
def topOutOfRange (k : Kind) (wide : Bool) (r : StepRecord) : Bool :=
  match k with
  | .pdm => false
  | .position => decide (greatestValue wide < r.top.toNat)
  | _ => r.top == 0 || decide (greatestTop wide < r.top.toNat)

/-- Check 4 on cmp, or thr_b: out of range. -/
def cmpOutOfRange (k : Kind) (wide : Bool) (r : StepRecord) : Bool :=
  match k with
  | .strobe => decide (r.top.toNat < r.cmp.toNat)
  | .pwm | .pdm => decide (r.top.toNat + 1 < r.cmp.toNat)
  | .position => decide (greatestValue wide < r.cmp.toNat)
  | _ => false

/-- The kinds that read the polarity field (R30, R50). -/
def Kind.hasPolarity : Kind → Bool
  | .level | .period | .width | .count => true
  | .tone | .strobe | .pwm | .pdm | .chime | .phase | .position => false

/-- Check 4: a field is out of the range its kind allows. -/
def failsRange (k : Kind) (wide : Bool) (r : StepRecord) : Bool :=
  topOutOfRange k wide r || cmpOutOfRange k wide r
    || (k.hasPolarity && (r.polarity == 0 || r.polarity == 3))

/-- Check 5: prescale above 8. -/
def failsPrescale (r : StepRecord) : Bool := decide (8 < r.prescale.toNat)

/-- Check 6: a PDM top that is not 2^w - 1 for a w the width allows (R39). -/
def failsPdmTop (k : Kind) (wide : Bool) (r : StepRecord) : Bool :=
  k == .pdm && (pdmWidth r.top.toNat (if wide then 32 else 16)).isNone

/-- Check 7: the start condition. -/
def failsStart (r : StepRecord) : Bool :=
  decide (3 < r.start.toNat) || (r.isOnMark && decide (7 < r.markSource.toNat))
    || (r.strict && !r.isAtTime)

/-- Check 8 on the positions that are zero for every kind, and on the start fields outside their mode
(R77, R171). -/
def commonZeroFails (r : StepRecord) : Bool :=
  r.zeroBit || r.zeroHigh != 0 || r.zeroMid != 0 || r.zeroLow != 0
    || (r.markSource != 0 && !r.isOnMark) || (r.startTime != 0 && !r.isAtTime)
    || (r.startTimeout != 0 && !r.isOnMark)

/-- Check 8 on the fields that R30 and R50 mark "must be 0" for the kind. -/
def kindZeroFails (k : Kind) (r : StepRecord) : Bool :=
  match k with
  | .tone | .chime =>
    r.cmp != 0 || r.polarity != 0 || r.strikes != 0 || r.quiet || r.summary || r.zeroPos
  | .strobe | .pwm | .pdm => r.polarity != 0 || r.strikes != 0 || r.quiet || r.summary || r.zeroPos
  | .level => r.cmp != 0 || r.strikes != 0 || r.quiet || r.summary || r.zeroPos
  | .period | .width | .count => r.cmp != 0 || r.zeroPos || r.endPark
  | .phase => r.cmp != 0 || r.polarity != 0 || r.zeroPos || r.endPark
  | .position => r.strikes != 0 || r.polarity != 0 || r.quiet || r.summary || r.endPark

/-- Check 9: the a_function is not valid for the kind. -/
def failsAFunction (k : Kind) (r : StepRecord) : Bool :=
  match k with
  | .chime => r.aFunction != 3
  | .tone | .strobe | .pwm | .pdm | .level => r.aFunction == 3
  | .period | .width | .phase | .count | .position => r.aFunction != 0

/-- Validate a step on a channel at its width: the lowest-numbered detail code among the failing checks,
or none where the step is GOOD (R8, R9). Check 1 leaves no other check to make. -/
def validate (ch : Channel) (wide : Bool) (r : StepRecord) : Option Nat :=
  match r.kindOf with
  | none => some 1
  | some k =>
    if failsClass ch k then some 2
    else if failsLine ch k r then some 3
    else if failsRange k wide r then some 4
    else if failsPrescale r then some 5
    else if failsPdmTop k wide r then some 6
    else if failsStart r then some 7
    else if commonZeroFails r || kindZeroFails k r then some 8
    else if failsAFunction k r then some 9
    else none

end Sys2Proof.Machine
end

