-- ==== Sys2Proof/Machine/Ops.lean ====
section
/-! DEFINITION. The shared operations: ring indices, the staging pool, and the notice unit. -/

namespace Sys2Proof.Machine

/-! ### Ring indices (spec 00 "Rings") -/

/-- An index advanced by one, wrapping from size - 1 to 0. -/
def bump (index size : Nat) : Nat := if index + 1 < size then index + 1 else 0

/-- The forward distance from index `a` to index `b` of a ring (R113, R139). -/
def forward (a b size : Nat) : Nat := (b + size - a) % size

/-- Add one, stopping at a limit. -/
def addUpTo (limit n : Nat) : Nat := if n < limit then n + 1 else n

/-- The limit at which the cycle count, the OK-capture count and n stop (R28, R43, R53). -/
def countLimit : Nat := 4294967295

/-! ### The staging pool -/

/-- The shared slots a list occupies. -/
def sharedIn (l : List Staged) : Nat := l.countP fun st => st.slot == .shared

/-- The shared slots in use (R105). -/
def Pool.sharedUsed (p : Pool) : Nat :=
  sharedIn p.lists[0] + sharedIn p.lists[1] + sharedIn p.lists[2] + sharedIn p.lists[3]

/-- A shared slot is free: there are 24 (R105). -/
def Pool.hasShared (p : Pool) : Bool := decide (p.sharedUsed < 24)

/-- The slot is the reserved slot of channel `c`. -/
def Staged.isReservedOf (c : ChanId) (st : Staged) : Bool :=
  st.slot == .reserved && st.entry.draft.channel == c

/-- The reserved slot of channel `c` is occupied. -/
def Pool.reservedBusy (p : Pool) (c : ChanId) : Bool :=
  p.lists[0].any (Staged.isReservedOf c) || p.lists[1].any (Staged.isReservedOf c)
    || p.lists[2].any (Staged.isReservedOf c) || p.lists[3].any (Staged.isReservedOf c)

/-- Place an entry in a slot and append the slot to the list of its ring (R106). -/
def Pool.append (p : Pool) (q : RingId) (st : Staged) : Pool :=
  { p with lists := p.lists.set q (p.lists[q] ++ [st]) }

/-- Free the slot at the head of a ring's list (R109). -/
def Pool.dropHead (p : Pool) (q : RingId) : Pool :=
  { p with lists := p.lists.set q p.lists[q].tail }

/-! ### The notice unit -/

/-- Raise a notice: pending set, unnoticed 0, timer stopped (R127). -/
def Notice.raise (n : Notice) : Notice :=
  { n with pending := true, unnoticed := 0, timer := none }

/-- Start the hold-off timer with the first uncounted entry (R125 step 2). -/
def Notice.startTimer (n : Notice) (tb : Ticks) : Notice :=
  if n.unnoticed = 0 ∧ n.holdOff ≠ 0 ∧ n.timer = none then
    { n with timer := some (tb + BitVec.ofNat 48 (64 * n.holdOff)) }
  else n

/-- Count one written entry (R125). -/
def Notice.countEntry (n : Notice) (tb : Ticks) (urgent : Bool) : Notice :=
  let n1 := { n.startTimer tb with unnoticed := n.unnoticed + 1 }
  if n1.unnoticed = n1.threshold ∨ urgent = true then n1.raise else n1

/-- The statuses whose STEP_DONE is urgent (R126). -/
def DoneStatus.isUrgent : DoneStatus → Bool
  | .badStep | .noSignal | .markTimeout | .lateSkipped => true
  | .done | .superseded | .preempted | .halted => false

/-- An entry of a completion ring is urgent (R126). -/
def Entry.isUrgent (e : Entry) : Bool :=
  match e.draft.body with
  | .fault .. | .flush .. => true
  | .stepDone b => b.status.isUrgent
  | .capture .. | .wrap .. | .threshold .. => false

/-- The notice context of a completion ring. -/
def noticeOf (q : RingId) : NoticeId := ⟨q, by omega⟩

/-- Report a written entry to the notice unit (R125). -/
def Part.report (p : Part) (i : NoticeId) (tb : Ticks) (urgent : Bool) : Part :=
  { p with notices := p.notices.set i (p.notices[i].countEntry tb urgent) }

/-! ### Choosing among events of one tick -/

/-- Take the next of several events that fall within one tick: the only one; or one that no order among them
matters to; or, where the order matters to each of them, the one that the open choice `k` names (R70, R107, log
entry 1). The flag says that the open choice was used. -/
def chooseNext {α : Type} (orderIsIdle : α → Bool) (k : Nat) : List α → Option (α × Bool)
  | [] => none
  | [a] => some (a, false)
  | a :: b :: rest =>
    match (a :: b :: rest).find? orderIsIdle with
    | some x => some (x, false)
    | none => some ((a :: b :: rest).getD (Config.firstTaken k % (rest.length + 2)) a, true)

/-- Note that an open choice of order was made. -/
def Part.noteChoice (p : Part) (used : Bool) : Part :=
  if used then { p with choices := p.choices + 1 } else p

/-- Two parts agree on everything that channels share: the pool, the port, the admin unit and the mark bus. -/
def Part.agreesOnShared (p q : Part) : Bool :=
  decide (p.pool = q.pool) && decide (p.port = q.port) && decide (p.admin = q.admin)
    && decide (p.marks = q.marks)

end Sys2Proof.Machine
end

