-- ==== Sys2Proof/Machine/Units.lean ====
section
/-! DEFINITION. One channel unit at one event (spec 01 to 04). A unit sees its own channel context, the line
table and the staging pool, and nothing else; what it tells the other blocks, a mark and a halt report,
stands in fields of its own. -/

namespace Sys2Proof.Machine

/-- What a channel unit can change at an event. -/
structure UnitView where
  ch : Channel
  lines : Vector LineEntry 16
  pool : Pool
  /-- a named event of this event emits a mark (R32, R49) -/
  emitted : Bool
  /-- the halt report whose admission the unit tells the admin unit of (R149) -/
  told : Option HaltReport
  /-- an output step ended at this event, with this end bit, and no step has started after it (R34, R84) -/
  ending : Option Bool
  /-- a step started at this event, and these were the drives of B and A that it found (R34, R84) -/
  found : Option (Drive × Drive)
  deriving DecidableEq, Repr

/-- What a channel unit reads at an event: its number, whether its width is 32 bits (R93), and the clock. -/
structure UnitContext where
  id : ChanId
  wide : Bool
  clock : Clock
  deriving DecidableEq, Repr

/-! ### Offers to the pool (R106) -/

/-- An entry composed at this event (R70, R101). -/
def UnitContext.draft (x : UnitContext) (body : EntryBody) : Draft :=
  { channel := x.id, time := x.clock.tb, body := body }

/-- Admit an entry into a slot: it takes the channel's seq and missed tally, the tally returns to 0, and it
joins the list of the bound ring (R104, R106). -/
def UnitView.admitted (u : UnitView) (slot : SlotKind) (d : Draft) : UnitView :=
  match u.ch.bound with
  | none => u
  | some q =>
    { u with
      pool := u.pool.append q { slot := slot, entry := { draft := d, seq := u.ch.seq, missed := u.ch.missed } }
      ch := { u.ch with seq := u.ch.seq + 1, missed := 0 } }

/-- Offer a capture-class entry: a free shared slot, or dropped and counted (R54, R106). -/
def UnitView.offerCapture (x : UnitContext) (body : EntryBody) (u : UnitView) : UnitView :=
  if u.pool.hasShared then u.admitted .shared (x.draft body)
  else { u with ch := { u.ch with missed := addUpTo 255 u.ch.missed } }

/-- Offer the STEP_DONE of a step that ran: a free shared slot, else the reserved slot (R15). -/
def UnitView.offerDone (x : UnitContext) (body : EntryBody) (u : UnitView) : UnitView :=
  u.admitted (if u.pool.hasShared then .shared else .reserved) (x.draft body)

/-- A FLUSH, a FAULT or a removal report can be staged: a shared slot is free, or the reserved one is empty
and the channel is not ACTIVE (R106). -/
def UnitView.canStage (x : UnitContext) (u : UnitView) : Bool :=
  u.pool.hasShared || (u.ch.active.isNone && !u.pool.reservedBusy x.id)

/-- Stage a report that can be staged: a shared slot is preferred (R106). -/
def UnitView.stage (d : Draft) (u : UnitView) : UnitView :=
  u.admitted (if u.pool.hasShared then .shared else .reserved) d

/-! ### Ends (R15, R16, R17, R21, R29, R55) -/

/-- The value of the STEP_DONE of a step that ran, as its kind gives it (R15, R29, R55, R65, R67, R102). A step that has
run for no ticks has completed no cycle and taken no capture, so its value is the 0 that R13 and R79 name. DEDUCED (log
entry 35): the value of a POSITION step counts nothing completed, and is the position register for such a step too. -/
def Channel.stepValue (ch : Channel) (r : StepRecord) : Nat :=
  if r.isOutput then ch.cycleCount
  else if r.isKind .position then ch.position
  else ch.okCount

/-- No step stands behind the active one, and the host has posted steps that the channel has not taken (R17). -/
def Channel.runsDry (ch : Channel) : Bool := ch.queue.isEmpty && ch.fetchIndex != ch.tail

/-- The fields of the STEP_DONE of an active step that ends (R15, R16, R17, R21, R53). -/
def Channel.doneBody (ch : Channel) (e : Step) (status : DoneStatus) (forced : Bool) : DoneBody :=
  let halted := status == .halted
  { tag := e.record.tag
    status := status
    flags :=
      { late := ch.startLate
        heldStart := ch.startHeld
        underrun := !halted && ch.runsDry
        forced := forced }
    value := ch.stepValue e.record
    sqHead := if halted then ch.fetchIndex else bump e.index ch.ringSize
    flushed := match halted, ch.halt with | true, some h => h.flushed | _, _ => 0
    fetchError := halted && ch.fetchFault
    firstTag := match halted, ch.halt with | true, some h => h.firstTag | _, _ => 0
    stats := if e.record.summary then some ch.acc else none }

/-- End the active step (R15): its STEP_DONE is composed and staged and its END mark emitted. An output step that
started at this very event puts back the drives it found (R34, R84; log entry 20). DESIGN CHOICE (log entry 39): a
PARK end behaviour waits for the close of the event, so a step that starts after it at the same event finds the drives
from before it, and not NONE. DESIGN CHOICE (log entry 42): the counter and phase stand as the ticks before this one
left them; the tick within which the step ends between boundaries (R48) is not counted, nor does it count later. -/
def UnitView.endActive (x : UnitContext) (status : DoneStatus) (forced : Bool) (u : UnitView) : UnitView :=
  match u.ch.active with
  | none => u
  | some e =>
    let body := u.ch.doneBody e status forced
    let lines :=
      match e.record.isOutput, u.found with
      | true, some (b, a) => setDrives u.lines u.ch b a
      | _, _ => u.lines
    UnitView.offerDone x (.stepDone body)
      { u with
        ch := { u.ch with active := none, running := false }
        lines := lines
        emitted := u.emitted || e.record.markEnd
        ending := if e.record.isOutput then some e.record.endPark else none }

/-! ### Closing (R22, R89) -/

/-- Release a line of a channel: the owner and the drive of an owned line, the listener flag otherwise (R89). -/
def LineEntry.release (c : ChanId) (l : LineEntry) : LineEntry :=
  if l.owner = some c then { l with owner := none, drive := .none }
  else { l with listeners := l.listeners.set c false }

/-- The channel becomes CLOSED: its claims are released, its class is none, and its bound ring is kept only
for a pending report (R22). -/
def UnitView.closeNow (x : UnitContext) (u : UnitView) : UnitView :=
  { u with
    lines := updateLine (updateLine u.lines u.ch.bLine (LineEntry.release x.id)) u.ch.aLine
      (LineEntry.release x.id)
    ch := { u.ch with
      state := .closed, cls := none, bLine := none, aLine := none, queue := [], armed := .none
      evaluation := .none, halt := none
      bound := if u.ch.pendingReport.isSome then u.ch.bound else none } }

/-- The channel becomes STOPPED, and at the same event CLOSED where the request's purpose is CLOSE (R22). -/
def UnitView.stopNow (x : UnitContext) (close : Bool) (u : UnitView) : UnitView :=
  let u1 := { u with ch := { u.ch with state := .stopped, halt := none } }
  if close then u1.closeNow x else u1

/-- End the active step HALTED under the channel's halt request (R21); the unit tells the admin unit of the
report's admission (R149). -/
def UnitView.endHalted (x : UnitContext) (forced : Bool) (u : UnitView) : UnitView :=
  match u.ch.halt with
  | none => u
  | some h =>
    let u1 := u.endActive x .halted forced
    { u1 with told := some { isFlush := false, flushed := h.flushed, sqHead := u.ch.fetchIndex } }.stopNow x
      h.close

/-- A faulted channel with nothing active and an empty window becomes STOPPED and composes its FAULT (R25). -/
def UnitView.stopOnFault (x : UnitContext) (u : UnitView) : UnitView :=
  let d := x.draft (.fault u.ch.fetchIndex)
  let u1 := if u.canStage x then u.stage d else { u with ch := { u.ch with pendingReport := some d } }
  { u1 with ch := { u1.ch with state := .stopped } }

/-! ### Arming, starting and handing over (R8, R10 to R14, R77, R78) -/

/-- The armed outcome is GOOD (R18). -/
def Armed.isGood : Armed → Bool
  | .good | .due .. => true
  | .none | .removal .. => false

/-- Arm the first element of the queue: it is validated once, at the width in force (R8). -/
def UnitView.arm (x : UnitContext) (e : Step) (u : UnitView) : UnitView :=
  match validate u.ch x.wide e.record with
  | none => { u with ch := { u.ch with armed := .good } }
  | some code => { u with ch := { u.ch with armed := .removal .badStep code x.clock.tb } }

/-- The STEP_DONE of a step removed before it started (R10, R16, R17). -/
def Channel.removalBody (ch : Channel) (e : Step) (status : DoneStatus) (value : Nat) : DoneBody :=
  { tag := e.record.tag
    status := status
    flags := { late := false, heldStart := false, underrun := ch.active.isNone && ch.runsDry, forced := false }
    value := value
    sqHead := bump e.index ch.ringSize
    flushed := 0
    fetchError := false
    firstTag := 0
    stats := none }

/-- Stage the removal report of the armed step; the step leaves the window at this event (R10). DESIGN CHOICE (log
entry 18): where the report had to wait for a slot, its UNDERRUN is judged at this event, at which the step leaves
the window (R10, R17), and not at the one at which its removal was decided, which gives its time stamp (R70). -/
def UnitView.remove (x : UnitContext) (e : Step) (status : DoneStatus) (value : Nat) (time : Ticks)
    (u : UnitView) : UnitView :=
  let u1 := { u with ch := { u.ch with queue := u.ch.queue.tail, armed := .none } }
  u1.stage { channel := x.id, time := time, body := .stepDone (u1.ch.removalBody e status value) }

/-- The measurement and output state that a step starts with (R14, R28, R43). -/
def Channel.startCounts (ch : Channel) (r : StepRecord) : Channel :=
  { ch with
    counter := 0, phase := 0, strikes := 0, acc := { min := 0, max := 0, sum := 0, n := 0 }
    cycleCount := 0, oddCycle := true, okCount := 0, edgeCount := 0, thresholdCount := 0
    intervalArmed := false, running := false, counted := true, edgeTaken := false
    position := if r.isKind .position && r.zeroPos then 0 else ch.position }

/-- Start the armed step (R14): it becomes the active step, its counts restart, its flags are recorded, its
lines take its first levels and START is emitted where named. -/
def UnitView.start (e : Step) (late held : Bool) (u : UnitView) : UnitView :=
  let ch1 :=
    { u.ch.startCounts e.record with
      active := some e, queue := u.ch.queue.tail, armed := .none, evaluation := .none
      startLate := late, startHeld := held }
  { u with
    ch := ch1
    lines := driveLines u.lines ch1
    emitted := u.emitted || e.record.markStart
    ending := none
    found := some (driveOf u.lines u.ch.bLine, driveOf u.lines u.ch.aLine) }

/-- Begin the evaluation of an AT_TIME step within tick tb (R78). The lateness is taken modulo 2^48 against
f = tb + 1 and read as signed. -/
def UnitView.beginAtTime (x : UnitContext) (e : Step) (u : UnitView) : UnitView :=
  let d := (e.record.startTime - (x.clock.tb + 1)).toNat
  if d = 0 then { u with ch := { u.ch with armed := .due false false } }
  else if d < 2 ^ 47 then { u with ch := { u.ch with evaluation := .atTime e.record.startTime } }
  else if e.record.strict then
    { u with ch := { u.ch with
        armed := .removal .lateSkipped (min (2 ^ 48 - d) 4294967295) x.clock.tb } }
  else { u with ch := { u.ch with armed := .due true false } }

/-- Begin the evaluation of an ON_MARK step within tick tb (R77, R81). -/
def UnitView.beginOnMark (x : UnitContext) (e : Step) (u : UnitView) : UnitView :=
  let expiry :=
    if e.record.startTimeout = 0 then none
    else some (x.clock.tb + e.record.startTimeout.setWidth 48)
  { u with ch := { u.ch with evaluation := .onMark e.record.source expiry } }

/-! ### Edges of a POSITION step (R62, R63, R64, R67) -/

/-- The current tick is a tick of the channel's active step, which `f` judges (R70). -/
def Channel.runs (ch : Channel) (f : StepRecord → Bool) : Bool :=
  match ch.active with
  | some e => ch.running && f e.record
  | none => false

/-- A POSITION step's edge on B falls in the current tick and has not been taken (R62). -/
def Channel.countStepDue (ch : Channel) (k : Clock) : Bool :=
  !ch.edgeTaken && (k.rises ch.bLine || k.falls ch.bLine) && ch.runs fun r => r.isKind .position

/-- The direction of a count step: DOWN where B's direction and A's sample before the edge are a rise with A
high or a fall with A low (R62). -/
def countsDown (bRises aBefore : Bool) : Bool := bRises == aBefore

/-- The position after one count step, modulo 2^16 or 2^32 (R62). -/
def stepPosition (wide down : Bool) (position : Nat) : Nat :=
  if down then (if position = 0 then greatestValue wide else position - 1)
  else (if position = greatestValue wide then 0 else position + 1)

/-- The count step wraps the register (R63). -/
def wraps (wide down : Bool) (position : Nat) : Bool :=
  if down then position == 0 else position == greatestValue wide

/-- Emit a CYCLE mark where the step's marks set names it (R32, R49). -/
def UnitView.cycleMark (r : StepRecord) (u : UnitView) : UnitView :=
  { u with emitted := u.emitted || r.markCycle }

/-- The position after the edge of the current tick (R62). -/
def UnitView.nextPosition (x : UnitContext) (u : UnitView) : Nat :=
  stepPosition x.wide (countsDown (x.clock.rises u.ch.bLine) (x.clock.before u.ch.aLine)) u.ch.position

/-- The edge of the current tick takes the position to a threshold of step `r` (R64). -/
def UnitView.atThreshold (x : UnitContext) (r : StepRecord) (u : UnitView) : Bool :=
  u.nextPosition x == r.top.toNat || u.nextPosition x == r.cmp.toNat

/-- Count the edge of the current tick: the position moves, a wrap offers a WRAP, and an arrival at a threshold offers
a THRESHOLD, is counted and emits CYCLE (R62, R63, R64). -/
def UnitView.countEdge (x : UnitContext) (r : StepRecord) (u : UnitView) : UnitView :=
  let down := countsDown (x.clock.rises u.ch.bLine) (x.clock.before u.ch.aLine)
  let after := u.nextPosition x
  let u1 := { u with ch := { u.ch with position := after, edgeTaken := true } }
  let u2 := if wraps x.wide down u.ch.position then u1.offerCapture x (.wrap r.tag down) else u1
  if u.atThreshold x r then
    let u3 := u2.offerCapture x (.threshold r.tag (after != r.top.toNat) down after)
    ({ u3 with ch := { u3.ch with thresholdCount := u3.ch.thresholdCount + 1 } } : UnitView).cycleMark r
  else u2

/-- The continuous POSITION step `a` is superseded by the GOOD step `e` behind it (R18, R67). Where `e` is a CHAIN
POSITION step, no edge is lost between the two (R67), and the edge of the ended step's last tick belongs to the ended
step (R43, R72), which counts it first if it has not; log entry 38. -/
def UnitView.supersede (x : UnitContext) (a e : Step) (u : UnitView) : UnitView :=
  let u1 :=
    if e.record.isChain && e.record.isKind .position && u.ch.countStepDue x.clock then u.countEdge x a.record
    else u
  u1.endActive x .superseded false

/-- The channel arms and starts nothing: it is CLOSED, STOPPED or SUBORDINATE, or holds a halt request (R20). -/
def Channel.noSteps (ch : Channel) : Bool :=
  ch.state == .closed || ch.state == .stopped || ch.state == .subordinate || ch.halt.isSome

/-- What happens next to the armed step GOOD with nothing active (R11): a CHAIN or IMMEDIATE start is due,
an AT_TIME or ON_MARK evaluation begins. -/
def UnitView.beginStart (x : UnitContext) (e : Step) (u : UnitView) : UnitView :=
  if e.record.isAtTime then u.beginAtTime x e
  else if e.record.isOnMark then u.beginOnMark x e
  else { u with ch := { u.ch with armed := .due false false } }

/-- One turn of a channel that may arm, remove, start, preempt, supersede or stop: none where nothing more
happens at this event (R8, R10 to R13, R18, R25, R67). -/
def UnitView.turn (x : UnitContext) (u : UnitView) : Option UnitView :=
  if u.ch.noSteps then none
  else
    match u.ch.queue with
    | [] => if u.ch.active.isNone && u.ch.fetchFault then some (u.stopOnFault x) else none
    | e :: _ =>
      match u.ch.armed, u.ch.active with
      | .none, _ => some (u.arm x e)
      | .removal status value time, _ =>
        if u.canStage x then some (u.remove x e status value time) else none
      | .good, some a =>
        if e.record.isImmediate then some (u.endActive x .preempted false)
        else if a.record.isKind .position && a.record.continuous then
          some (u.supersede x a e)
        else none
      | .good, none =>
        if u.ch.evaluation = .none then some (u.beginStart x e) else none
      | .due _ _, some _ => none
      | .due late held, none =>
        if u.pool.reservedBusy x.id then
          (if held then none else some { u with ch := { u.ch with armed := .due late true } })
        else some (u.start e late held)

/-- All the turns of one event; a window of four steps needs at most 28 (log entry 8). -/
def UnitView.proceed (x : UnitContext) : Nat → UnitView → UnitView
  | 0, u => u
  | fuel + 1, u =>
    match u.turn x with
    | none => u
    | some u1 => UnitView.proceed x fuel u1

/-- The number of turns allowed at one event. -/
def turnLimit : Nat := 32

/-- The state an open channel takes from its window and armed outcome (R3). -/
def Channel.derivedState (ch : Channel) : ChState :=
  match ch.state with
  | .closed => .closed
  | .stopped => .stopped
  | .subordinate => .subordinate
  | .idle | .waiting | .active | .held =>
    if ch.active.isSome then .active
    else if ch.queue.isEmpty then .idle
    else if ch.evaluation = .none then .held
    else .waiting

/-- Close an event of a unit: the end behaviour of a step that no other followed (R34, R88), and the
channel's state (R3). -/
def UnitView.settle (u : UnitView) : UnitView :=
  { u with
    lines := if u.ending = some true then setDrives u.lines u.ch .none .none else u.lines
    ch := { u.ch with state := u.ch.derivedState } }

/-- Hand over: take every turn of the event. -/
def UnitView.handOver (x : UnitContext) (u : UnitView) : UnitView := u.proceed x turnLimit

/-- End the active step at its boundary with a status of its own and hand over (R15). -/
def UnitView.endAndHandOver (x : UnitContext) (status : DoneStatus) (u : UnitView) : UnitView :=
  (u.endActive x status false).handOver x

/-! ### Boundaries (R18, R28, R47) -/

/-- Decide the step's fate at a boundary (R28, R47): a halt request ends it HALTED, its own condition ends it
with `natural`, a GOOD step behind a continuous one supersedes it, and otherwise it goes on. -/
def UnitView.boundary (x : UnitContext) (r : StepRecord) (natural : Option DoneStatus)
    (goOn : UnitView → UnitView) (u : UnitView) : UnitView :=
  if u.ch.halt.isSome then u.endHalted x false
  else
    match natural with
    | some status => u.endAndHandOver x status
    | none => if r.continuous && u.ch.armed.isGood then u.endAndHandOver x .superseded else goOn u

/-- The counter and prescaler phase are 0 from the next tick on (R27, R46, R60). DESIGN CHOICE (log entry 36): they
are 0 at this event already, so an output step that goes on at its cycle end and is then ended by a later event of
the same tick leaves 0 in the counter (the cycle that R28 begins), and not the top of its last prescaled tick
(R27). -/
def UnitView.nextFromZero (u : UnitView) : UnitView :=
  { u with ch := { u.ch with counter := 0, phase := 0, counted := true } }

/-- The count field is not 0 and `n` has reached it. -/
def StepRecord.countReached (r : StepRecord) (n : Nat) : Bool :=
  !r.continuous && n == r.count.toNat

/-- CYCLE_END at the unit (R28). -/
def UnitView.cycleEnd (x : UnitContext) (u : UnitView) : UnitView :=
  match u.ch.active with
  | none => u
  | some e =>
    let n := addUpTo countLimit u.ch.cycleCount
    let u1 := { u with ch := { u.ch with cycleCount := n, oddCycle := !u.ch.oddCycle } }
    (u1.cycleMark e.record).boundary x e.record
      (if e.record.countReached n then some .done else none) UnitView.nextFromZero

/-- Enter a value into the summary accumulators (R53). -/
def Stats.enter (s : Stats) (v : Nat) : Stats :=
  if s.n < countLimit then
    { min := if s.n = 0 then v else Nat.min s.min v
      max := if s.n = 0 then v else Nat.max s.max v
      sum := s.sum + v
      n := s.n + 1 }
  else s

/-- An OK capture's effect on the step's counts (R45 steps 2 and 3, R60). -/
def Channel.okCapture (ch : Channel) (r : StepRecord) (v : Nat) : Channel :=
  { ch with
    strikes := 0
    okCount := addUpTo countLimit ch.okCount
    acc := if r.summary then ch.acc.enter v else ch.acc }

/-- Offer an OK CAPTURE unless the step is quiet (R45 step 4, R52). -/
def UnitView.offerOk (x : UnitContext) (r : StepRecord) (v : Nat) (u : UnitView) : UnitView :=
  if r.quiet then u else u.offerCapture x (.capture r.tag false false v)

/-- CAPTURE_EDGE at the unit: a capture of an armed step (R45), or the arming of an unarmed one. -/
def UnitView.captureEdge (x : UnitContext) (u : UnitView) : UnitView :=
  match u.ch.active with
  | none => u
  | some e =>
    if u.ch.intervalArmed then
      let v := u.ch.counter
      let u1 := { u with ch :=
        { u.ch.okCapture e.record v with counter := 0, phase := 0, edgeTaken := true } }
      let u2 := (u1.offerOk x e.record v).cycleMark e.record
      u2.boundary x e.record (if e.record.countReached u1.ch.okCount then some .done else none) id
    else
      { u with ch :=
        { u.ch with counter := 0, phase := 0, intervalArmed := true, edgeTaken := true } }

/-- OVERRANGE at the unit (R46): the capture carries top, the step disarms, a strike is counted. The counter
holds top at this event and is 0 from the next tick where the step goes on. -/
def UnitView.overrange (x : UnitContext) (u : UnitView) : UnitView :=
  match u.ch.active with
  | none => u
  | some e =>
    let top := e.record.top.toNat
    let u1 := u.offerCapture x (.capture e.record.tag true (!u.ch.intervalArmed) top)
    let n := addUpTo 15 u.ch.strikes
    let u2 := { u1 with ch :=
      { u1.ch with counter := top, phase := 0, intervalArmed := false, strikes := n } }
    (u2.cycleMark e.record).boundary x e.record
      (if e.record.strikes != 0 && n == e.record.strikes.toNat then some .noSignal else none)
      UnitView.nextFromZero

/-- WINDOW_EDGE at the unit (R60, R61). -/
def UnitView.windowEdge (x : UnitContext) (u : UnitView) : UnitView :=
  { u with ch := { u.ch with
      edgeCount := addUpTo (greatestValue x.wide) u.ch.edgeCount, edgeTaken := true } }

/-- The next COUNT window begins with the next tick (R60). -/
def UnitView.nextWindow (u : UnitView) : UnitView :=
  let u1 := u.nextFromZero
  { u1 with ch := { u1.ch with edgeCount := 0 } }

/-- WINDOW_END at the unit: an OK capture of the edge count, or an OVERRANGE at saturation (R60, R61). -/
def UnitView.windowEnd (x : UnitContext) (u : UnitView) : UnitView :=
  match u.ch.active with
  | none => u
  | some e =>
    let v := u.ch.edgeCount
    if v < greatestValue x.wide then
      let u1 := { u with ch := u.ch.okCapture e.record v }
      let u2 := (u1.offerOk x e.record v).cycleMark e.record
      u2.boundary x e.record (if e.record.countReached u1.ch.okCount then some .done else none)
        UnitView.nextWindow
    else
      let u1 := u.offerCapture x (.capture e.record.tag true false v)
      let n := addUpTo 15 u.ch.strikes
      let u2 := { u1 with ch := { u1.ch with strikes := n } }
      (u2.cycleMark e.record).boundary x e.record
        (if e.record.strikes != 0 && n == e.record.strikes.toNat then some .noSignal else none)
        UnitView.nextWindow

/-- COUNT_STEP at the unit (R62, R63, R64, R67): the edge is counted, and a threshold event that completes the count
ends the step. -/
def UnitView.countStep (x : UnitContext) (u : UnitView) : UnitView :=
  match u.ch.active with
  | none => u
  | some e =>
    let u1 := u.countEdge x e.record
    if u.atThreshold x e.record && e.record.countReached u1.ch.thresholdCount then
      u1.endAndHandOver x .done
    else u1

/-! ### Conditions met and arrivals (R6, R12, R23, R24, R77 to R82) -/

/-- The armed step's AT_TIME or ON_MARK condition is satisfied (R79, R80, R82). -/
def UnitView.satisfied (x : UnitContext) (u : UnitView) : UnitView :=
  { u with ch := { u.ch with evaluation := .none, armed := .due false false } }.handOver x

/-- The start_timeout of the armed ON_MARK step expires (R81). -/
def UnitView.markTimeout (x : UnitContext) (u : UnitView) : UnitView :=
  match u.ch.queue with
  | [] => u
  | e :: _ =>
    { u with ch := { u.ch with
        evaluation := .none
        armed := .removal .markTimeout e.record.startTimeout.toNat x.clock.tb } }.handOver x

/-- A step-record read returns: with the record, or none for an error (R6, R24). -/
def UnitView.readReturns (x : UnitContext) (result : Option StepRecord) (u : UnitView) : UnitView :=
  let u1 := { u with ch := { u.ch with fetchInFlight := false, stale := false } }
  if u.ch.stale || u.ch.noSteps then u1
  else
    match result with
    | some r =>
      { u1 with ch := { u1.ch with
          queue := u1.ch.queue ++ [(⟨u1.ch.fetchIndex, r⟩ : Step)]
          fetchIndex := bump u1.ch.fetchIndex u1.ch.ringSize } }.handOver x
    | none => { u1 with ch := { u1.ch with fetchFault := true } }.handOver x

/-- A pending report, where it is a FLUSH, as the halt report the admin unit waits for (R149). -/
def Draft.haltReport (d : Draft) : Option HaltReport :=
  match d.body with
  | .flush flushed _ sqHead _ => some { isFlush := true, flushed := flushed, sqHead := sqHead }
  | .capture .. | .wrap .. | .threshold .. | .stepDone .. | .fault .. => none

/-- Offer again what waits: the pending report (R23), or the removal report or due start (R10, R12). -/
def UnitView.offerAgain (x : UnitContext) (u : UnitView) : UnitView :=
  match u.ch.pendingReport with
  | none => u.handOver x
  | some d =>
    if u.canStage x then
      let u1 := u.stage d
      { u1 with
        told := d.haltReport
        ch := { u1.ch with
          pendingReport := none
          bound := if u1.ch.state = .closed then none else u1.ch.bound } }
    else u

/-! ### Halts (R20, R21, R22, R150) -/

/-- The tag of the first step flushed; 0 where none is (R20). -/
def firstTagOf (l : List Step) : BitVec 16 :=
  match l with
  | [] => 0
  | e :: _ => e.record.tag

/-- Take a halt request with no step active: flush the window and compose a FLUSH (R20). -/
def UnitView.flushIdle (x : UnitContext) (close : Bool) (u : UnitView) : UnitView :=
  let n := u.ch.queue.length
  let d := x.draft (.flush n (firstTagOf u.ch.queue) u.ch.fetchIndex u.ch.fetchFault)
  let u1 := { u with ch := { u.ch with queue := [], armed := .none, evaluation := .none } }
  let u2 :=
    if u1.canStage x then { u1.stage d with told := d.haltReport }
    else { u1 with ch := { u1.ch with pendingReport := some d } }
  u2.stopNow x close

/-- The request a channel holds after it takes a new one: the new one, or the merger of R150. -/
def Channel.mergedRequest (ch : Channel) (close boundary deadline : Bool) : HaltRequest :=
  match ch.halt with
  | none =>
    { close := close, boundary := boundary, deadline := deadline, flushed := ch.queue.length
      firstTag := firstTagOf ch.queue }
  | some h =>
    { close := h.close || close, boundary := h.boundary && boundary, deadline := deadline
      flushed := h.flushed, firstTag := h.firstTag }

/-- Take a halt request with a step active (R20, R21, R67, R150). -/
def UnitView.haltActive (x : UnitContext) (e : Step) (close boundary deadline : Bool) (u : UnitView) :
    UnitView :=
  let h := u.ch.mergedRequest close boundary deadline
  let u1 := { u with ch := { u.ch with
    halt := some h, queue := [], armed := .none, evaluation := .none } }
  if !h.boundary || e.record.isKind .position then u1.endHalted x false else u1

/-- Take a halt request (R20): any read in flight becomes stale. -/
def UnitView.takeHalt (x : UnitContext) (close boundary deadline : Bool) (u : UnitView) : UnitView :=
  let u1 := { u with ch := { u.ch with stale := u.ch.stale || u.ch.fetchInFlight } }
  match u.ch.state with
  | .closed | .subordinate => u1
  | .stopped => if close then u1.closeNow x else u1
  | .idle | .waiting | .active | .held =>
    match u.ch.active with
    | some e => u1.haltActive x e close boundary deadline
    | none => u1.flushIdle x close

/-! ### The tick (R27, R44, R60, R73) -/

/-- One gated tick passes: the phase advances, and with the last tick of a prescaled tick the counter. -/
def Channel.passTick (ch : Channel) (r : StepRecord) : Channel :=
  if ch.phase + 1 < r.prescaled then { ch with phase := ch.phase + 1 }
  else { ch with phase := 0, counter := ch.counter + 1 }

/-- The tick ends at a channel: an output step and COUNT count every tick, the interval kinds count gated
ticks, POSITION counts none; a tick that an event has already accounted for is not counted again. -/
def Channel.endTick (k : Clock) (ch : Channel) : Channel :=
  match ch.active with
  | none => { ch with running := false, counted := false, edgeTaken := false }
  | some e =>
    let r := e.record
    let moves := ch.running && !ch.counted && (r.isOutput || r.isKind .count || ch.gated k r)
    let ch1 := if moves then ch.passTick r else ch
    { ch1 with running := true, counted := false, edgeTaken := false }

end Sys2Proof.Machine
end

