-- ==== Sys2Proof/Machine/Blocks.lean ====
section
/-! DEFINITION. How the blocks meet at an event: a channel unit in the part, the completion of an admin
command, the port arbiter, the freeing of pool slots, and the arrival of marks. -/

namespace Sys2Proof.Machine

/-! ### Admin completion (R138, R141) -/

/-- Complete the current command: compose its ACQ entry, stop the deadline timer and become POSTING (R138). -/
def Part.complete (p : Part) (status : AdminStatus) (results : Results) : Part :=
  match p.admin.current with
  | none => p
  | some c =>
    { p with admin := { p.admin with
        unit := .posting
        completion := some
          { opcode := c.opcode, status := status, tag := c.record.tag
            adminHead := bump c.index p.admin.ringSize, results := results }
        deadline := none
        waitingOn := .nothing } }

/-- The admin unit waits on channel `c` (R149). -/
def Part.waitsOnChannel (p : Part) (c : ChanId) : Bool :=
  p.admin.unit == .waiting && p.admin.waitingOn == .channel c

/-- The admin unit learns that a halt report of channel `c` was admitted: a command WAITING on it completes
with OK (R149). -/
def Part.hearHalt (p : Part) (c : ChanId) (told : Option HaltReport) : Part :=
  match told with
  | none => p
  | some h => if p.waitsOnChannel c then p.complete .ok h.words else p

/-! ### A channel unit in the part -/

/-- The channel's counter is 32 bits wide: it is the even channel of a joined pair (R93). -/
def Part.wide (p : Part) (c : ChanId) : Bool :=
  c.val % 2 == 0 && p.pairs[c.val / 2]'(by omega)

/-- The context of channel unit `c`. -/
def Part.context (p : Part) (k : Clock) (c : ChanId) : UnitContext :=
  { id := c, wide := p.wide c, clock := k }

/-- What channel unit `c` can change. -/
def Part.view (p : Part) (c : ChanId) : UnitView :=
  { ch := p.chans[c], lines := p.lines, pool := p.pool, emitted := false, told := none, ending := none
    found := none }

/-- Put back what the unit changed, and its mark on the bus (R74). -/
def Part.withView (p : Part) (c : ChanId) (u : UnitView) : Part :=
  { p with
    chans := p.chans.set c u.ch
    lines := u.lines
    pool := u.pool
    marks := if u.emitted then p.marks.set c true else p.marks }

/-- One event at channel unit `c`. -/
def Part.atUnit (p : Part) (k : Clock) (c : ChanId) (f : UnitContext → UnitView → UnitView) : Part :=
  let u := (f (p.context k c) (p.view c)).settle
  (p.withView c u).hearHalt c u.told

/-! ### The port arbiter (R157 to R160) -/

/-- The response limit of a transaction granted within tick tb (R161). -/
def responseLimit (tb : Ticks) : Ticks := tb + 65536

/-- The part of its head entry that a ring writes next, with the free slots it needs to begin: the STATS
slot of a half-written entry (R116), PAD before a long entry at the last slot (R117), the first slot of a
long entry, or a single slot (R114). -/
def Ring.nextPart (r : Ring) (e : Entry) : EntryPart × Nat :=
  if e.isLong then
    if r.halfWritten then (.stats, 1)
    else if r.writeIndex + 1 = r.size then (.pad, 3)
    else (.longFirst, 2)
  else (.single, 1)

/-- A ring's free space (R112). -/
def Ring.free (r : Ring) : Nat := r.size - 1 - r.outstanding

/-- What a ring asks to write, where it asks (R114, R158). -/
def Part.ringAsks (p : Part) (q : RingId) : Option (Entry × EntryPart) :=
  let r := p.rings[q]
  match p.pool.lists[q] with
  | [] => none
  | st :: _ =>
    let (part, need) := r.nextPart st.entry
    if r.state = .ready ∧ r.inFlight = false ∧ need ≤ r.free then some (st.entry, part) else none

/-- The channel is eligible for a step read (R5, R160). DESIGN CHOICE (log entry 32): these conditions stand also
where the active step was read from the slot at the fetch index, so that slot's index can appear twice in a window,
which R4 says it does not. -/
def Channel.eligible (ch : Channel) : Bool :=
  (ch.state == .idle || ch.state == .waiting || ch.state == .active || ch.state == .held)
    && ch.halt.isNone && !ch.fetchFault && !ch.fetchInFlight && decide (ch.depth < 4)
    && ch.fetchIndex != ch.tail

/-- The admin unit asks for its ACQ write (R138, R158). -/
def Admin.asksWrite (a : Admin) : Option AcqEntry :=
  if a.unit = .posting ∧ 1 ≤ a.acqSize - 1 - a.acqOutstanding then a.completion else none

/-- The admin unit asks for an admin read (R134, R158). -/
def Part.asksAdminRead (p : Part) : Bool :=
  p.admin.unit == .idle && p.admin.fetchIndex != p.admin.tail && p.device.state == .running

/-- The device asks for the configuration read (R158, R165). -/
def Part.asksConfigRead (p : Part) : Bool :=
  p.device.state == .starting && !p.device.configGranted

/-- The address of a slot of a ring: base + index * 32 (R157). -/
def slotAddress (base : Word32) (index : Nat) : Word32 := base + BitVec.ofNat 32 (index * 32)

/-- Begin a transaction (R157, R161). -/
def Part.begin (p : Part) (tb : Ticks) (kind : TxKind) (address : Word32) (data : Slot) : Part :=
  { p with port := { p.port with
      current := some { kind := kind, address := address, data := data, limit := responseLimit tb } } }

/-- Grant the ACQ write (R159 order 1). -/
def Part.grantAcq (p : Part) (tb : Ticks) (e : AcqEntry) : Part :=
  p.begin tb .acqWrite (slotAddress p.admin.acqBase p.admin.acqWrite) (e.toBytes p.admin.acqPhase)

/-- Grant an entry write: the address and data are fixed at the grant (R114, R157, R159 order 2). -/
def Part.grantEntry (p : Part) (tb : Ticks) (q : RingId) (e : Entry) (part : EntryPart) : Part :=
  let r := p.rings[q]
  let p1 := { p with
    rings := p.rings.set q { r with inFlight := true }
    port := { p.port with writePointer := q } }
  p1.begin tb (.entryWrite q part) (slotAddress r.base r.writeIndex) (e.partBytes part r.phase)

/-- Grant a step read: the fetch-in-flight flag is set with the stale mark clear (R5, R159 order 3). -/
def Part.grantStep (p : Part) (tb : Ticks) (c : ChanId) : Part :=
  let ch := p.chans[c]
  let p1 := { p with
    chans := p.chans.set c { ch with fetchInFlight := true, stale := false }
    port := { p.port with fetchPointer := c } }
  p1.begin tb (.stepRead c) (slotAddress ch.ringBase ch.fetchIndex) 0

/-- Grant the admin read: the unit becomes FETCHING (R134). -/
def Part.grantAdminRead (p : Part) (tb : Ticks) : Part :=
  { p with admin := { p.admin with unit := .fetching } }.begin tb .adminRead
    (slotAddress p.admin.ringBase p.admin.fetchIndex) 0

/-- Grant the configuration read, at CFGBASE as it stands (R165). -/
def Part.grantConfig (p : Part) (tb : Ticks) : Part :=
  { p with device := { p.device with configGranted := true } }.begin tb .configRead p.device.cfgBase 0

/-- The rings in the order the arbiter considers them (R159). -/
def Port.ringOrder (t : Port) : List RingId :=
  [t.writePointer + 1, t.writePointer + 2, t.writePointer + 3, t.writePointer]

/-- The channels after a pointer, counting 0 to 7 and wrapping (R108, R159). -/
def chansAfter (c : ChanId) : List ChanId :=
  [c + 1, c + 2, c + 3, c + 4, c + 5, c + 6, c + 7, c]

/-- The arbiter's grant: where the port is IDLE, one asking requester's transaction begins, the ACQ write
first, then an entry write, a step read, and the admin or configuration read (R159). -/
def Part.grant (p : Part) (tb : Ticks) : Part :=
  match p.port.current with
  | some _ => p
  | none =>
    match p.admin.asksWrite with
    | some e => p.grantAcq tb e
    | none =>
      match p.port.ringOrder.findSome? fun q => (p.ringAsks q).map fun a => (q, a) with
      | some (q, e, part) => p.grantEntry tb q e part
      | none =>
        match (chansAfter p.port.fetchPointer).find? fun c => p.chans[c].eligible with
        | some c => p.grantStep tb c
        | none =>
          if p.asksAdminRead then p.grantAdminRead tb
          else if p.asksConfigRead then p.grantConfig tb
          else p

/-! ### Freed slots (R108, R109) -/

/-- The channel has a waiting offer: a removal report in its armed outcome, or a pending report (R108). -/
def Channel.hasOffer (ch : Channel) : Bool :=
  ch.pendingReport.isSome || (match ch.armed with | .removal .. => true | _ => false)

/-- A shared slot was freed: it is granted by rotation to a channel with a waiting offer (R108). -/
def Part.sharedFreed (p : Part) (k : Clock) : Part :=
  match (chansAfter p.pool.rotation).find? fun c => p.chans[c].hasOffer with
  | none => p
  | some c => ({ p with pool := { p.pool with rotation := c } } : Part).atUnit k c UnitView.offerAgain

/-- Free the slot of the entry at the head of a ring's list, and act on the freeing (R109). -/
def Part.freeHead (p : Part) (k : Clock) (q : RingId) : Part :=
  match p.pool.lists[q] with
  | [] => p
  | st :: _ =>
    let p1 := { p with pool := p.pool.dropHead q }
    match st.slot with
    | .shared => p1.sharedFreed k
    | .reserved => p1.atUnit k st.entry.draft.channel UnitView.offerAgain

/-! ### Marks (R74, R75, R80) -/

/-- The channel's waiting step is satisfied by a mark of channel `s`; a channel's own mark never satisfies
its step (R75, R76). -/
def Part.waitsForMark (p : Part) (s c : ChanId) : Bool :=
  s != c && (match p.chans[c].evaluation with | .onMark m _ => m == s | _ => false)

/-- The channels that a mark newly on the bus reaches, given the bus as it stood before. -/
def Part.reached (p : Part) (before : Vector Bool 8) : List ChanId :=
  allChans.filter fun c => allChans.any fun s => p.marks[s] && !before[s] && p.waitsForMark s c

/-- The channel evaluates an ON_MARK condition (R77). -/
def Channel.awaitsMark (ch : Channel) : Bool :=
  match ch.evaluation with
  | .onMark .. => true
  | .none | .atTime _ => false

/-- A mark arrives at channel `c`: its condition is satisfied (R80), and any request that follows is granted. A
unit that evaluates no such condition does nothing (R75). -/
def Part.markArrives (p : Part) (k : Clock) (c : ChanId) : Part :=
  if p.chans[c].awaitsMark then (p.atUnit k c UnitView.satisfied).grant k.tb else p

/-- Deliver marks to the channels of the list, one event after the other; the marks those starts emit reach
further channels in turn (R74, R75, log entry 9). -/
def Part.deliver (k : Clock) : Nat → List ChanId → Part → Part
  | 0, _, p => p
  | fuel + 1, l, p =>
    match chooseNext (fun c => (p.markArrives k c).agreesOnShared p) p.choices l with
    | none => p
    | some (c, used) =>
      let p1 := (p.noteChoice used).markArrives k c
      Part.deliver k fuel (l.erase c ++ p1.reached p.marks) p1

/-- How many arrivals one event can cause: eight signals, each reaching seven other channels. -/
def arrivalLimit : Nat := 64

/-- Close a step of the part: the port grants where it can (R159), and the marks that the step put on the bus
arrive (R75). `before` is the bus as the step found it. -/
def Part.closeStep (p : Part) (k : Clock) (before : Vector Bool 8) : Part :=
  let p1 := p.grant k.tb
  Part.deliver k arrivalLimit (p1.reached before) p1

end Sys2Proof.Machine
end

