-- ==== Sys2Proof/Machine/Answers.lean ====
section
/-! DEFINITION. What each block does with the answer of its transaction (spec 07.4, 07.5, 09.2, 09.3, 11.3), and
the rows of the table that are such an answer. An answer to a transaction the port no longer carries is
ignored (R161); one whose discard is set ends the transaction and goes to no block (R163). -/

namespace Sys2Proof.Machine

/-- The transaction ends: the port becomes IDLE and clears discard (R157, R163). -/
def Part.endTransaction (p : Part) : Part :=
  { p with port := { p.port with current := none, discard := false } }

/-- The outstanding transaction ends with a result: where `handler` takes its kind, the result is handed over,
unless discard is set; then the port grants (R159, R161, R163). A result of another kind finds no transaction
and changes nothing (log entry 10). -/
def Part.ended (p : Part) (k : Clock) (handler : TxKind → Option (Part → Part)) : Part :=
  match p.port.current with
  | none => p
  | some t =>
    match handler t.kind with
    | none => p
    | some f =>
      let p1 := p.endTransaction
      (if p.port.discard then p1 else f p1).closeStep k p.marks

/-- The response limit of the outstanding transaction expires in the current tick (R161). -/
def Port.limitDue (t : Port) (k : Clock) : Bool :=
  match t.current with
  | some tx => tx.limit == k.tb
  | none => false

/-- The outstanding transaction is withdrawn from the bus: an answer to it may still arrive (R161). -/
def Port.withdraws (t : Port) : Port :=
  { t with withdrawn := t.withdrawn ++ (t.current.map Transaction.kind).toList }

/-- `handler` takes the kind of the outstanding transaction. -/
def Port.takenBy (t : Port) (handler : TxKind → Option (Part → Part)) : Bool :=
  match t.current with
  | some tx => (handler tx.kind).isSome
  | none => false

/-- `handler` takes the kind of a transaction that the port has withdrawn. -/
def Port.awaitsLate (t : Port) (handler : TxKind → Option (Part → Part)) : Bool :=
  t.withdrawn.any fun kind => (handler kind).isSome

/-- The answer to a withdrawn transaction has arrived, and is ignored (R161). -/
def Part.ignoreLate (p : Part) (handler : TxKind → Option (Part → Part)) : Part :=
  { p with port := { p.port with
      withdrawn := p.port.withdrawn.eraseP fun kind => (handler kind).isSome } }

/-- The bus answers. The answer belongs to the outstanding transaction, or to one that the port has withdrawn at
its response limit, and is then ignored (R161). Where it could be either, an open choice says which (log entry
37). -/
def Part.answered (p : Part) (k : Clock) (handler : TxKind → Option (Part → Part)) : Part :=
  if p.port.awaitsLate handler then
    if p.port.takenBy handler then
      if Config.answersWithdrawn p.choices then (p.noteChoice true).ignoreLate handler
      else (p.noteChoice true).ended k handler
    else p.ignoreLate handler
  else p.ended k handler

/-! ### What a command that waits will answer (R168) -/

/-- Answers to two transactions are the same rows of the table, which carry no identity: the part cannot tell an
answer to the one from an answer to the other. -/
def TxKind.alike : TxKind → TxKind → Bool
  | .stepRead _, .stepRead _ => true
  | .entryWrite .., .entryWrite .. => true
  | .acqWrite, .acqWrite => true
  | .adminRead, .adminRead => true
  | .configRead, .configRead => true
  | .stepRead _, _ | .entryWrite .., _ | .acqWrite, _ | .adminRead, _ | .configRead, _ => false

/-- The kind of transaction that a command answers, where it is an answer of the bus; channel 0 and ring 0 stand for
all, which the rows do not tell apart. -/
def answeredKind : Instr → Option TxKind
  | .stepReadReturn _ | .stepReadError => some (.stepRead 0)
  | .entryWriteDone | .entryWriteError => some (.entryWrite 0 .single)
  | .acqWriteDone | .acqWriteError => some .acqWrite
  | .nop _ | .cqCreate _ | .cqDelete _ | .cqReset _ | .cqNotice _ | .chOpen _ | .chHalt _ | .chClose _
  | .chResume _ | .chRead _ | .pairJoin _ | .pairSplit _ | .posSet _ | .linePark _ | .badOpcode ..
  | .adminReadError => some .adminRead
  | .configReadReturn _ | .configReadError => some .configRead
  | .hardReset _ | .reset | .enable | .restartAdmin | .tbloRead | .devstatWrite _ | .cfgbaseWrite _
  | .intstatWrite _ | .ignoredRegisterWrite .. | .postStepTail .. | .postCqHead .. | .postAdminTail _
  | .postAcqHead _ | .postRingId1415 .. | .discardedTransactionEnd | .responseLimitExpiry
  | .noticeTimerExpiry _ | .deadlineExpiry | .atTimeSatisfied _ | .markTimeout _ | .cycleEnd _ | .overrange _
  | .windowEnd _ | .captureEdge _ | .windowEdge _ | .countStep _ | .tick _ => none

/-- The commands of the queue that fall within the current tick: those in front of the first TICK or HARD_RESET. -/
def restOfTick : List Instr → List Instr
  | [] => []
  | .tick _ :: _ | .hardReset _ :: _ => []
  | i :: rest => i :: restOfTick rest

/-- An answer to a transaction of kind `kind` comes in the current tick. -/
def answerComes (waiting : List Instr) (kind : TxKind) : Bool :=
  (restOfTick waiting).any fun i => answeredKind i == some kind

/-! ### Step reads (R6, R24) -/

/-- A step read of channel `c` returns to the fetcher and the channel unit. -/
def Part.stepRead (p : Part) (k : Clock) (c : ChanId) (result : Option StepRecord) : Part :=
  p.atUnit k c fun x u => u.readReturns x result

/-! ### Entry writes (R114 to R118, R122) -/

/-- A slot of the ring has been written: the write index and outstanding advance, and the phase inverts at
the wrap (R114, R115). -/
def Ring.advance (r : Ring) : Ring :=
  { r with
    writeIndex := bump r.writeIndex r.size
    phase := if r.writeIndex + 1 < r.size then r.phase else !r.phase
    outstanding := r.outstanding + 1
    inFlight := false }

/-- Replace a ring context. -/
def Part.setRing (p : Part) (q : RingId) (r : Ring) : Part := { p with rings := p.rings.set q r }

/-- An entry has been written whole: it is reported to the notice unit and its slot is freed (R114, R125). -/
def Part.entryWhole (p : Part) (k : Clock) (q : RingId) : Part :=
  match p.pool.lists[q] with
  | [] => p
  | st :: _ => (p.report (noticeOf q) k.tb st.entry.isUrgent).freeHead k q

/-- An entry write of ring `q` succeeds (R114, R116, R117). -/
def Part.writeDone (p : Part) (k : Clock) (q : RingId) (part : EntryPart) : Part :=
  let r := p.rings[q].advance
  match part with
  | .single => (p.setRing q r).entryWhole k q
  | .longFirst => p.setRing q { r with halfWritten := true }
  | .stats => (p.setRing q { r with halfWritten := false }).entryWhole k q
  | .pad => p.setRing q r

/-- An entry write of ring `q` ends in error: the ring becomes FAULTED and nothing else moves (R118). -/
def Part.writeFailed (p : Part) (q : RingId) : Part :=
  p.setRing q { p.rings[q] with inFlight := false, state := .faulted }

/-- A ring restarted at slot 0 (R122 steps 1 to 4). -/
def Ring.restarted (r : Ring) (newBase : Option Word32) : Ring :=
  { r with
    state := .ready, halfWritten := false, writeIndex := 0, phase := true, hostHead := 0
    outstanding := 0, base := newBase.getD r.base }

/-- The new base a CQ_RESET gives, where it gives one (R145). -/
def newBaseOf (r : CommandRecord) : Option Word32 := if r.bit 5 then some (r.word 8) else none

/-- Make the restart and complete the CQ_RESET, with the number of entries in the list (R122, R145). -/
def Part.restart (p : Part) (q : RingId) : Part :=
  match p.admin.current with
  | none => p
  | some c =>
    (p.setRing q (p.rings[q].restarted (newBaseOf c.record))).complete .ok
      (Results.one p.pool.lists[q].length)

/-- A CQ_RESET WAITING on the ring makes its restart once the returned write has been handled (R122). -/
def Part.restartIfWaiting (p : Part) (q : RingId) : Part :=
  if p.admin.unit = .waiting ∧ p.admin.waitingOn = .ring q then p.restart q else p

/-! ### Admin reads and ACQ writes (R135, R138, R140, R167) -/

/-- The device enters ADMIN_FAULT with a cause, and the admin unit is FAULTED (R167). -/
def Part.adminFaults (p : Part) (cause : Cause) : Part :=
  { p with
    admin := { p.admin with unit := .faulted }
    device := { p.device with state := .adminFault, cause := cause } }

/-- An ACQ write succeeds (R125, R126, R138). -/
def Part.acqDone (p : Part) (k : Clock) : Part :=
  let a := p.admin
  let urgent := match a.completion with | some e => e.status != .ok | none => false
  let p1 := { p with admin := { a with
    acqWrite := bump a.acqWrite a.acqSize
    acqPhase := if a.acqWrite + 1 < a.acqSize then a.acqPhase else !a.acqPhase
    acqOutstanding := a.acqOutstanding + 1
    current := none, completion := none, unit := .idle } }
  p1.report 4 k.tb urgent

/-! ### The configuration read (R166) -/

/-- The configuration read returns the block: it is checked, and the device becomes RUNNING with the admin
rings set, or ADMIN_FAULT with the cause of the first check that fails (R166). -/
def Part.configured (p : Part) (b : ConfigBlock) : Part :=
  match b.firstFailure with
  | some cause => p.adminFaults cause
  | none =>
    { p with
      admin :=
        { Admin.reset with
          ringBase := b.adminBase, ringSize := b.adminSize, acqBase := b.acqBase, acqSize := b.acqSize }
      device := { p.device with state := .running, cause := .none } }

/-! ### Errors (R162) -/

/-- A transaction ends in error: it goes to the block that asked for it and to no other (R162). -/
def Part.failed (p : Part) (k : Clock) (kind : TxKind) : Part :=
  match kind with
  | .stepRead c => p.stepRead k c none
  | .entryWrite q _ => (p.writeFailed q).restartIfWaiting q
  | .acqWrite => p.adminFaults .acqWrite
  | .adminRead => p.adminFaults .adminRead
  | .configRead => p.adminFaults .configRead

/-! ### The rows -/

/-- Run an event of the blocks in a state. -/
def State.onPart (s : State) (f : Clock → Part → Part) : State :=
  { s with part := f s.clock s.part }

/-- STEP_READ_RETURN (R6). -/
def execStepReadReturn (record : Slot) (s : State) : Host.Outcome State Fault Refusal :=
  .next <| s.onPart fun k p => p.answered k fun
    | .stepRead c => some fun p1 => p1.stepRead k c (some (StepRecord.ofBytes record))
    | .entryWrite .. | .acqWrite | .adminRead | .configRead => none

/-- STEP_READ_ERROR (R24). -/
def execStepReadError (s : State) : Host.Outcome State Fault Refusal :=
  .next <| s.onPart fun k p => p.answered k fun
    | .stepRead c => some fun p1 => p1.failed k (.stepRead c)
    | .entryWrite .. | .acqWrite | .adminRead | .configRead => none

/-- ENTRY_WRITE_DONE (R114). -/
def execEntryWriteDone (s : State) : Host.Outcome State Fault Refusal :=
  .next <| s.onPart fun k p => p.answered k fun
    | .entryWrite q part => some fun p1 => (p1.writeDone k q part).restartIfWaiting q
    | .stepRead _ | .acqWrite | .adminRead | .configRead => none

/-- ENTRY_WRITE_ERROR (R118). -/
def execEntryWriteError (s : State) : Host.Outcome State Fault Refusal :=
  .next <| s.onPart fun k p => p.answered k fun
    | .entryWrite q part => some fun p1 => p1.failed k (.entryWrite q part)
    | .stepRead _ | .acqWrite | .adminRead | .configRead => none

/-- ACQ_WRITE_DONE (R138). -/
def execAcqWriteDone (s : State) : Host.Outcome State Fault Refusal :=
  .next <| s.onPart fun k p => p.answered k fun
    | .acqWrite => some fun p1 => p1.acqDone k
    | .stepRead _ | .entryWrite .. | .adminRead | .configRead => none

/-- ACQ_WRITE_ERROR (R140). -/
def execAcqWriteError (s : State) : Host.Outcome State Fault Refusal :=
  .next <| s.onPart fun k p => p.answered k fun
    | .acqWrite => some fun p1 => p1.failed k .acqWrite
    | .stepRead _ | .entryWrite .. | .adminRead | .configRead => none

/-- ADMIN_READ_ERROR (R135). -/
def execAdminReadError (s : State) : Host.Outcome State Fault Refusal :=
  .next <| s.onPart fun k p => p.answered k fun
    | .adminRead => some fun p1 => p1.failed k .adminRead
    | .stepRead _ | .entryWrite .. | .acqWrite | .configRead => none

/-- CONFIG_READ_RETURN (R166). -/
def execConfigReadReturn (block : BitVec 512) (s : State) : Host.Outcome State Fault Refusal :=
  .next <| s.onPart fun k p => p.answered k fun
    | .configRead => some fun p1 => p1.configured (ConfigBlock.ofBytes block)
    | .stepRead _ | .entryWrite .. | .acqWrite | .adminRead => none

/-- CONFIG_READ_ERROR (R166). -/
def execConfigReadError (s : State) : Host.Outcome State Fault Refusal :=
  .next <| s.onPart fun k p => p.answered k fun
    | .configRead => some fun p1 => p1.failed k .configRead
    | .stepRead _ | .entryWrite .. | .acqWrite | .adminRead => none

/-- A transaction whose discard is set ends: its result goes to no block and the port grants (R163). -/
def Part.discardedEnd (p : Part) (k : Clock) : Part :=
  if p.port.discard then p.ended k fun _ => some id else p

/-- DISCARDED_TRANSACTION_END (R163). -/
def execDiscardedTransactionEnd (s : State) : Host.Outcome State Fault Refusal :=
  .next <| s.onPart fun k p => p.discardedEnd k

end Sys2Proof.Machine
end

