-- ==== Sys2Proof/Machine/AdminCommands.lean ====
section
/-! DEFINITION. The administrative commands (spec 09, R94 to R99): taking, checking, carrying out, completing. -/

namespace Sys2Proof.Machine

/-! ### Taking a command (R135, R137, R172) -/

/-- The admin-record read returns data: the record becomes the current command, the fetch index advances and
the unit becomes EXECUTING (R135). -/
def Part.take (p : Part) (opcode : BitVec 8) (r : CommandRecord) : Part :=
  { p with admin := { p.admin with
      current := some { opcode := opcode, record := r, index := p.admin.fetchIndex }
      fetchIndex := bump p.admin.fetchIndex p.admin.ringSize
      unit := .executing } }

/-- A refused command: the status, result words of zeros, and no effect on any block (R137, R138). -/
def Part.refuse (p : Part) (status : AdminStatus) : Part := p.complete status Results.zero

/-- The answer of an admin-record read that carries a known command: it is taken, its zero fields are checked
first, and then its own checks and effect follow (R135, R137, R172). -/
def Part.command (p : Part) (k : Clock) (opcode : Nat) (r : CommandRecord) (body : Part → Part) : Part :=
  p.answered k fun
    | .adminRead => some fun p1 =>
      let p2 := p1.take (BitVec.ofNat 8 opcode) r
      if r.zerosHold opcode then body p2 else p2.refuse .badParam
    | .stepRead _ | .entryWrite .. | .acqWrite | .configRead => none

/-- Replace a channel context. -/
def Part.setChan (p : Part) (c : ChanId) (ch : Channel) : Part := { p with chans := p.chans.set c ch }

/-! ### NOP and BAD_OPCODE (R137, R142) -/

/-- NOP (R142). -/
def execNop (r : CommandRecord) (s : State) : Host.Outcome State Fault Refusal :=
  .next <| s.onPart fun k p => p.command k 1 r fun p => p.complete .ok Results.zero

/-- BAD_OPCODE: an opcode that names no command, and no other check is made (R137). A term whose opcode names a
command is no BAD_OPCODE. -/
def execBadOpcode (opcode : BitVec 8) (r : CommandRecord) (s : State) :
    Host.Outcome State Fault Refusal :=
  if knownOpcode opcode then .refused (.notThisCommand "BAD_OPCODE")
  else .next <| s.onPart fun k p => p.answered k fun
    | .adminRead => some fun p1 => (p1.take opcode r).refuse .badOpcode
    | .stepRead _ | .entryWrite .. | .acqWrite | .configRead => none

/-! ### Completion ring commands (R120 to R122, R132, R143 to R146) -/

/-- The notice settings of CQ_CREATE and CQ_NOTICE lie in their ranges (R132, R143, R146). -/
def noticeSettingsLegal (r : CommandRecord) : Bool :=
  decide (1 ≤ r.byte 7 ∧ r.byte 7 ≤ 64) && decide (r.byte 6 ≤ 3)

/-- The notice settings of a command, with unnoticed 0 and the timer stopped (R132). -/
def noticeSettings (r : CommandRecord) (pending : Bool) : Notice :=
  { enable := r.bit 5, threshold := r.byte 7, holdOff := r.half 14, level := r.byte 6, unnoticed := 0
    timer := none, pending := pending }

/-- Replace a notice context. -/
def Part.setNotice (p : Part) (i : NoticeId) (n : Notice) : Part := { p with notices := p.notices.set i n }

/-- The context of a newly created ring (R120). -/
def Ring.created (base : Word32) (size : Nat) : Ring :=
  { Ring.reset with state := .ready, base := base, size := size }

/-- CQ_CREATE's checks and effect (R120, R132, R143). -/
def Part.cqCreate (p : Part) (r : CommandRecord) : Part :=
  match ringNumber (r.byte 4) with
  | none => p.refuse .badParam
  | some q =>
    if !legalSize 16 4096 (r.half 12) then p.refuse .badParam
    else if !legalBase (r.word 8) (r.half 12) then p.refuse .badParam
    else if !noticeSettingsLegal r then p.refuse .badParam
    else if p.rings[q].state ≠ .absent then p.refuse .badState
    else
      (((p.setRing q (Ring.created (r.word 8) (r.half 12))).setNotice (noticeOf q)
        (noticeSettings r false))).complete .ok Results.zero

/-- CQ_CREATE (R143). -/
def execCqCreate (r : CommandRecord) (s : State) : Host.Outcome State Fault Refusal :=
  .next <| s.onPart fun k p => p.command k 2 r fun p => p.cqCreate r

/-- A channel holds the ring as its bound ring (R121). -/
def Part.ringInUse (p : Part) (q : RingId) : Bool := allChans.any fun c => p.chans[c].bound == some q

/-- CQ_DELETE's checks and effect (R121, R132, R144). DESIGN CHOICE (log entry 41): the notice context takes R124's
values as R132's table says, pending clear among them, also where the hold-off timer expired in the same tick and was
taken first, of which R128 says that the notice stands. -/
def Part.cqDelete (p : Part) (r : CommandRecord) : Part :=
  match ringNumber (r.byte 4) with
  | none => p.refuse .badParam
  | some q =>
    if p.rings[q].state ≠ .ready ∨ p.ringInUse q = true ∨ p.pool.lists[q] ≠ [] then p.refuse .badState
    else
      ((p.setRing q Ring.reset).setNotice (noticeOf q) Notice.reset).complete .ok
        (Results.one p.rings[q].outstanding)

/-- CQ_DELETE (R144). -/
def execCqDelete (r : CommandRecord) (s : State) : Host.Outcome State Fault Refusal :=
  .next <| s.onPart fun k p => p.command k 3 r fun p => p.cqDelete r

/-- The new base of a CQ_RESET is legal for the ring, or is 0 where it is absent (R145 check 2). -/
def newBaseLegal (r : CommandRecord) (size : Nat) : Bool :=
  if r.bit 5 then legalBase (r.word 8) size else r.word 8 == 0

/-- The command becomes WAITING on a ring (R145). -/
def Part.waitOnRing (p : Part) (q : RingId) : Part :=
  { p with admin := { p.admin with unit := .waiting, waitingOn := .ring q } }

/-- CQ_RESET's checks and effect: at once where no write of the ring is in flight, else at its return (R122,
R145). -/
def Part.cqReset (p : Part) (r : CommandRecord) : Part :=
  match ringNumber (r.byte 4) with
  | none => p.refuse .badParam
  | some q =>
    if !newBaseLegal r p.rings[q].size then p.refuse .badParam
    else if p.rings[q].state = .absent then p.refuse .badState
    else if p.rings[q].inFlight then p.waitOnRing q
    else p.restart q

/-- CQ_RESET (R145). -/
def execCqReset (r : CommandRecord) (s : State) : Host.Outcome State Fault Refusal :=
  .next <| s.onPart fun k p => p.command k 4 r fun p => p.cqReset r

/-- A notice context's number, where it lies in 0 to 4. -/
def noticeNumber (n : Nat) : Option NoticeId := if h : n < 5 then some ⟨n, h⟩ else none

/-- The ring of a notice context is ABSENT; the ACQ never is (R132, R146). -/
def Part.noticeRingAbsent (p : Part) (i : NoticeId) : Bool :=
  match ringNumber i.val with
  | some q => p.rings[q].state == .absent
  | none => false

/-- CQ_NOTICE's checks and effect (R132, R146). -/
def Part.cqNotice (p : Part) (r : CommandRecord) : Part :=
  match noticeNumber (r.byte 4) with
  | none => p.refuse .badParam
  | some i =>
    if !noticeSettingsLegal r then p.refuse .badParam
    else if p.noticeRingAbsent i then p.refuse .badState
    else (p.setNotice i (noticeSettings r p.notices[i].pending)).complete .ok Results.zero

/-- CQ_NOTICE (R146). -/
def execCqNotice (r : CommandRecord) (s : State) : Host.Outcome State Fault Refusal :=
  .next <| s.onPart fun k p => p.command k 5 r fun p => p.cqNotice r

/-! ### Channel commands (R2, R20 to R22, R26, R85, R86, R147 to R153, R155) -/

/-- The class a CH_OPEN names: 1 OUTPUT, 2 INPUT (spec 12.3, R172). -/
def classOf (r : CommandRecord) : Option ChClass :=
  match r.byte 5 with
  | 1 => some .output
  | 2 => some .input
  | _ => none

/-- The line claims a CH_OPEN names, where they are well formed: b_line, and a_line where it is present
(R85, R147 check 7). -/
def claimsOf (r : CommandRecord) : Option (LineId × Option LineId) :=
  match lineNumber (r.byte 6) with
  | none => none
  | some b =>
    if r.bit 8 then
      match lineNumber (r.byte 7) with
      | none => none
      | some a => if a = b then none else some (b, some a)
    else if r.byte 7 = 0 then some (b, none) else none

/-- A requested line already has an output owner (R85). -/
def Part.lineOwned (p : Part) (line : Option LineId) : Bool :=
  match line with
  | some i => p.lines[i].owner.isSome
  | none => false

/-- Claim a line: ownership with drive NONE for OUTPUT, membership of the listeners for INPUT (R85, R86). -/
def LineEntry.claim (cls : ChClass) (c : ChanId) (l : LineEntry) : LineEntry :=
  match cls with
  | .output => { l with owner := some c, drive := .none }
  | .input => { l with listeners := l.listeners.set c true }

/-- The context of a newly opened channel: from the command, the fetcher's flags kept, every other field as
after reset (R2). -/
def Channel.opened (ch : Channel) (cls : ChClass) (b : LineId) (a : Option LineId) (q : RingId)
    (base : Word32) (size start : Nat) : Channel :=
  { Channel.reset with
    state := .idle, cls := some cls, bLine := some b, aLine := a, bound := some q, ringBase := base
    ringSize := size, fetchIndex := start, tail := start, fetchInFlight := ch.fetchInFlight
    stale := ch.stale }

/-- Carry out a CH_OPEN that passed its checks: the claims are granted and the context set (R2, R85, R86). -/
def Part.openChannel (p : Part) (c : ChanId) (cls : ChClass) (b : LineId) (a : Option LineId) (q : RingId)
    (r : CommandRecord) : Part :=
  { p with
    lines := updateLine (updateLine p.lines (some b) (LineEntry.claim cls c)) a (LineEntry.claim cls c)
    chans := p.chans.set c (p.chans[c].opened cls b a q (r.word 12) (r.half 10) (r.half 16)) }

/-- CH_OPEN's checks in their order, and its effect (R147). -/
def Part.chOpen (p : Part) (r : CommandRecord) : Part :=
  match r.channel, classOf r, ringNumber (r.byte 9) with
  | some c, some cls, some q =>
    if !legalSize 4 1024 (r.half 10) then p.refuse .badParam
    else if !legalBase (r.word 12) (r.half 10) then p.refuse .badParam
    else if r.half 10 ≤ r.half 16 then p.refuse .badParam
    else
      match claimsOf r with
      | none => p.refuse .badParam
      | some (b, a) =>
        if p.chans[c].state ≠ .closed then p.refuse .badState
        else if p.chans[c].pendingReport.isSome then p.refuse .badState
        else if p.rings[q].state ≠ .ready then p.refuse .badState
        else if cls = .output ∧ (p.lineOwned (some b) || p.lineOwned a) = true then p.refuse .lineBusy
        else (p.openChannel c cls b a q r).complete .ok Results.zero
  | _, _, _ => p.refuse .badParam

/-- CH_OPEN (R147). -/
def execChOpen (r : CommandRecord) (s : State) : Host.Outcome State Fault Refusal :=
  .next <| s.onPart fun k p => p.command k 6 r fun p => p.chOpen r

/-- The mode a CH_HALT or CH_CLOSE names, set for BOUNDARY: 1 IMMEDIATE, 2 BOUNDARY (spec 12.3, R172). -/
def modeOf (r : CommandRecord) : Option Bool :=
  match r.byte 5 with
  | 1 => some false
  | 2 => some true
  | _ => none

/-- The command becomes WAITING on a channel, with its deadline timer where it carries a deadline (R141). -/
def Part.waitOnChannel (p : Part) (k : Clock) (c : ChanId) (deadline : Word32) : Part :=
  { p with admin := { p.admin with
      unit := .waiting
      waitingOn := .channel c
      deadline := if deadline = 0 then none else some (k.tb + deadline.setWidth 48) } }

/-- Pass a halt request to a channel that is open and not STOPPED (R148, R149): the unit waits, and completes
at this same event where the halt report is admitted at it. -/
def Part.passHalt (p : Part) (k : Clock) (c : ChanId) (close boundary : Bool) (deadline : Word32) : Part :=
  (p.waitOnChannel k c deadline).atUnit k c fun x u => u.takeHalt x close boundary (deadline != 0)

/-- CH_HALT's checks and effect (R148). -/
def Part.chHalt (p : Part) (k : Clock) (r : CommandRecord) : Part :=
  match r.channel, modeOf r with
  | some c, some boundary =>
    match p.chans[c].state with
    | .closed | .subordinate => p.refuse .badState
    | .stopped => p.complete .ok (noReportWords p.chans[c].fetchIndex)
    | .idle | .waiting | .active | .held => p.passHalt k c false boundary (r.word 8)
  | _, _ => p.refuse .badParam

/-- CH_HALT (R148). -/
def execChHalt (r : CommandRecord) (s : State) : Host.Outcome State Fault Refusal :=
  .next <| s.onPart fun k p => p.command k 7 r fun p => p.chHalt k r

/-- CH_CLOSE's checks and effect (R22, R151). -/
def Part.chClose (p : Part) (k : Clock) (r : CommandRecord) : Part :=
  match r.channel, modeOf r with
  | some c, some boundary =>
    match p.chans[c].state with
    | .closed | .subordinate => p.refuse .badState
    | .stopped =>
      (p.atUnit k c fun x u => u.takeHalt x true boundary false).complete .ok
        (noReportWords p.chans[c].fetchIndex)
    | .idle | .waiting | .active | .held => p.passHalt k c true boundary (r.word 8)
  | _, _ => p.refuse .badParam

/-- CH_CLOSE (R151). -/
def execChClose (r : CommandRecord) (s : State) : Host.Outcome State Fault Refusal :=
  .next <| s.onPart fun k p => p.command k 8 r fun p => p.chClose k r

/-- CH_RESUME's checks and effect (R26, R152). -/
def Part.chResume (p : Part) (r : CommandRecord) : Part :=
  match r.channel with
  | none => p.refuse .badParam
  | some c =>
    let ch := p.chans[c]
    if ch.state ≠ .stopped then p.refuse .badState
    else if ch.pendingReport.isSome then p.refuse .badState
    else if ch.ringSize ≤ r.half 16 then p.refuse .badParam
    else
      (p.setChan c { ch with state := .idle, fetchIndex := r.half 16, fetchFault := false }).complete .ok
        Results.zero

/-- CH_RESUME (R152). -/
def execChResume (r : CommandRecord) (s : State) : Host.Outcome State Fault Refusal :=
  .next <| s.onPart fun k p => p.command k 9 r fun p => p.chResume r

/-- CH_READ's check and effect (R153). -/
def Part.chRead (p : Part) (r : CommandRecord) : Part :=
  match r.channel with
  | none => p.refuse .badParam
  | some c => p.complete .ok (p.chans[c].snapshot (p.pool.reservedBusy c))

/-- CH_READ (R153). -/
def execChRead (r : CommandRecord) (s : State) : Host.Outcome State Fault Refusal :=
  .next <| s.onPart fun k p => p.command k 10 r fun p => p.chRead r

/-- The pair that an even channel parameter names, with its two channels (R93, R94). -/
def pairOf (r : CommandRecord) : Option (Fin 4 × ChanId × ChanId) :=
  match r.byte 4 with
  | 0 => some (0, 0, 1)
  | 2 => some (1, 2, 3)
  | 4 => some (2, 4, 5)
  | 6 => some (3, 6, 7)
  | _ => none

/-- The context of R1's table with a state of its own; the fetcher's flags are kept (R95, R99). -/
def Channel.blank (ch : Channel) (state : ChState) : Channel :=
  { Channel.reset with state := state, fetchInFlight := ch.fetchInFlight, stale := ch.stale }

/-- A channel is CLOSED or STOPPED (R94, R99). -/
def Channel.atRest (ch : Channel) : Bool := ch.state == .closed || ch.state == .stopped

/-- PAIR_JOIN's checks and effect (R94, R95). -/
def Part.pairJoin (p : Part) (r : CommandRecord) : Part :=
  match pairOf r with
  | none => p.refuse .badParam
  | some (j, even, odd) =>
    if p.chans[even].atRest && p.chans[odd].state == .closed && p.chans[odd].pendingReport.isNone then
      (({ p with pairs := p.pairs.set j true } : Part).setChan odd
        (p.chans[odd].blank .subordinate)).complete .ok Results.zero
    else p.refuse .badState

/-- PAIR_JOIN (R95). -/
def execPairJoin (r : CommandRecord) (s : State) : Host.Outcome State Fault Refusal :=
  .next <| s.onPart fun k p => p.command k 11 r fun p => p.pairJoin r

/-- The even channel after a split: its counter and position are reduced modulo 2^16 (R99). -/
def Channel.narrowed (ch : Channel) : Channel :=
  { ch with counter := ch.counter % 65536, position := ch.position % 65536 }

/-- PAIR_SPLIT's checks and effect (R99). -/
def Part.pairSplit (p : Part) (r : CommandRecord) : Part :=
  match pairOf r with
  | none => p.refuse .badParam
  | some (j, even, odd) =>
    if p.pairs[j] && p.chans[even].atRest then
      ((({ p with pairs := p.pairs.set j false } : Part).setChan odd
        (p.chans[odd].blank .closed)).setChan even p.chans[even].narrowed).complete .ok Results.zero
    else p.refuse .badState

/-- PAIR_SPLIT (R99). -/
def execPairSplit (r : CommandRecord) (s : State) : Host.Outcome State Fault Refusal :=
  .next <| s.onPart fun k p => p.command k 12 r fun p => p.pairSplit r

/-- POS_SET's checks and effect: the previous position is returned (R66, R155). -/
def Part.posSet (p : Part) (r : CommandRecord) : Part :=
  match r.channel with
  | none => p.refuse .badParam
  | some c =>
    let ch := p.chans[c]
    if ch.state = .closed ∨ ch.state = .subordinate ∨ ch.cls ≠ some .input then p.refuse .badState
    else if greatestValue (p.wide c) < (r.word 8).toNat then p.refuse .badParam
    else
      (p.setChan c { ch with position := (r.word 8).toNat }).complete .ok (Results.one ch.position)

/-- POS_SET (R155). -/
def execPosSet (r : CommandRecord) (s : State) : Host.Outcome State Fault Refusal :=
  .next <| s.onPart fun k p => p.command k 13 r fun p => p.posSet r

/-! ### LINE_PARK (R91, R156) -/

/-- The level a LINE_PARK names: 1 LOW, 2 HIGH, 3 FLOAT (spec 12.3, R172). -/
def parkOf (r : CommandRecord) : Option Park :=
  match r.byte 5 with
  | 1 => some .low
  | 2 => some .high
  | 3 => some .float
  | _ => none

/-- LINE_PARK's checks and effect (R91, R156). -/
def Part.linePark (p : Part) (r : CommandRecord) : Part :=
  match lineNumber (r.byte 4), parkOf r with
  | some i, some level =>
    ({ p with lines := p.lines.set i { p.lines[i] with park := level } } : Part).complete .ok Results.zero
  | _, _ => p.refuse .badParam

/-- LINE_PARK (R156). -/
def execLinePark (r : CommandRecord) (s : State) : Host.Outcome State Fault Refusal :=
  .next <| s.onPart fun k p => p.command k 14 r fun p => p.linePark r

end Sys2Proof.Machine
end

