-- ==== Sys2Proof/Machine/Control.lean ====
section
/-! DEFINITION. Resets, DEVCTL and the other registers (spec 11, R69, R129, R164 to R169, R174). -/

namespace Sys2Proof.Machine

/-! ### Resets (R163, R164) -/

/-- A transaction outstanding at a reset runs on with discard set; the rotation pointers take their reset
values (R157, R163). An answer that is still to come from the bus is still to come. -/
def Port.afterReset (t : Port) : Port :=
  { current := t.current, discard := t.current.isSome, withdrawn := t.withdrawn, writePointer := 3
    fetchPointer := 7 }

/-- Every block at its reset values, with the port's transaction running on and CFGBASE given (R164). -/
def Part.afterReset (p : Part) (cfgBase : Word32) : Part :=
  { Part.reset with
    port := p.port.afterReset
    device := { Part.reset.device with cfgBase := cfgBase }
    choices := p.choices }

/-- A response limit in the numbering of TB after hard reset: still 65536 ticks after the grant's tick, with
the tick after `tb` numbered 0 (R68, R161, R163, log entry 11). -/
def rebasedLimit (tb limit : Ticks) : Ticks := if limit = tb then 0 else limit - (tb + 1)

/-- The port after hard reset: TB restarts under the response limit. -/
def Port.afterHardReset (t : Port) (tb : Ticks) : Port :=
  { t.afterReset with
    current := t.current.map fun tx => { tx with limit := rebasedLimit tb tx.limit } }

/-- HARD_RESET (R68, R69, R71, R164): the machine stands in tick 0, the first tick after it. -/
def execHardReset (pins : BitVec 16) (s : State) : Host.Outcome State Fault Refusal :=
  .next
    { State.reset with
      pins := pins
      sample := samplePins pins
      readData := s.readData
      part := { s.part.afterReset 0 with port := s.part.port.afterHardReset s.tb }
      pending := s.pending }

/-- RESET: device reset (R164). TB, the TBHI latch, the sample history and CFGBASE stand. -/
def execReset (s : State) : Host.Outcome State Fault Refusal :=
  .next { s with part := s.part.afterReset s.part.device.cfgBase }

/-! ### DEVCTL (R165, R168) -/

/-- The device enters STARTING with the configuration read not yet granted (R158, R165). -/
def Device.starting (d : Device) : Device :=
  { d with state := .starting, cause := .none, configGranted := false }

/-- ENABLE's effect: in DISABLED the device becomes STARTING and asks for the configuration read; in any other
state it is ignored (R165). -/
def Part.enable (p : Part) (k : Clock) : Part :=
  if p.device.state = .disabled then
    ({ p with device := p.device.starting } : Part).closeStep k p.marks
  else p

/-- ENABLE (R165). -/
def execEnable (s : State) : Host.Outcome State Fault Refusal :=
  .next <| s.onPart fun k p => p.enable k

/-- The transaction belongs to the admin unit: an admin read or an ACQ write (R168). -/
def Port.carriesAdmin (t : Port) : Bool :=
  match t.current with
  | some tx => tx.kind == .adminRead || tx.kind == .acqWrite
  | none => false

/-- The ACQ's notice context at RESTART_ADMIN: unnoticed 0 and the timer stopped (R124). -/
def Notice.restarted (n : Notice) : Notice := { n with unnoticed := 0, timer := none }

/-- The port's transaction ends in the current tick: by its response limit, or by an answer among the commands that
wait (R168, log entry 40). -/
def Port.endsInTick (t : Port) (k : Clock) (waiting : List Instr) : Bool :=
  t.limitDue k || t.current.any fun tx => answerComes waiting tx.kind

/-- The answer that waits could be the late answer to a withdrawn transaction of the same kind (R161, log entry 37). -/
def Port.endIsOpen (t : Port) (k : Clock) : Bool :=
  !t.limitDue k && t.current.any fun tx => t.withdrawn.contains tx.kind

/-- The admin unit's transaction at a restart (R168): discard is set; or, where its end falls in the same tick, it has
already ended and nothing is discarded, and its answer finds no waiting admin unit. -/
def Part.dropAdminTransaction (p : Part) (k : Clock) (waiting : List Instr) : Part :=
  if p.port.carriesAdmin && !p.port.discard then
    let discarded : Part := { p with port := { p.port with discard := true } }
    let dropped : Part := { p with port := { p.port.withdraws with current := none } }
    if p.port.endsInTick k waiting then
      if p.port.endIsOpen k then
        (if Config.answersWithdrawn p.choices then discarded else dropped).noteChoice true
      else dropped
    else discarded
  else p

/-- RESTART_ADMIN's effect (R168): in RUNNING or ADMIN_FAULT the current command is abandoned and the device
becomes STARTING; in DISABLED or STARTING it is ignored. -/
def Part.restartAdmin (p : Part) (k : Clock) (waiting : List Instr) : Part :=
  if p.device.state = .running ∨ p.device.state = .adminFault then
    let p1 := p.dropAdminTransaction k waiting
    Part.closeStep
      { p1 with
        admin := { p.admin with
          unit := .idle, current := none, completion := none, deadline := none, waitingOn := .nothing }
        notices := p.notices.set 4 p.notices[4].restarted
        device := p.device.starting } k p.marks
  else p

/-- RESTART_ADMIN (R168). The commands that wait say whether an admin transaction ends in the tick of the restart. -/
def execRestartAdmin (s : State) : Host.Outcome State Fault Refusal :=
  .next <| s.onPart fun k p => p.restartAdmin k s.pending

/-! ### The other registers (R69, R129, R169, R174) -/

/-- TBLO_READ (R69): the low 32 bits of TB are returned, and the upper 16 go to the TBHI latch. -/
def execTbloRead (s : State) : Host.Outcome State Fault Refusal :=
  .next { s with readData := s.tb.extractLsb' 0 32, tbhi := s.tb.extractLsb' 32 16 }

/-- A 1 written to the POST_ERROR position clears POST_ERROR and the latched id (R169). -/
def Device.clearPostError (d : Device) (value : Word32) : Device :=
  if value.getLsbD 8 then { d with postError := false, latchedId := 0 } else d

/-- DEVSTAT_WRITE (R169). -/
def execDevstatWrite (value : Word32) (s : State) : Host.Outcome State Fault Refusal :=
  .next <| s.onPart fun _ p => { p with device := p.device.clearPostError value }

/-- CFGBASE_WRITE (R169): the low six bits are discarded. -/
def execCfgbaseWrite (value : Word32) (s : State) : Host.Outcome State Fault Refusal :=
  .next <| s.onPart fun _ p =>
    { p with device := { p.device with cfgBase := value.extractLsb' 6 26 ++ (0 : BitVec 6) } }

/-- Clear a pending flag whose bit is written with 1 (R129). -/
def Notice.acknowledge (n : Notice) (written : Bool) : Notice :=
  if written then { n with pending := false } else n

/-- The five notice contexts after a write to INTSTAT (R129). -/
def acknowledgeAll (v : Vector Notice 5) (value : Word32) : Vector Notice 5 :=
  Vector.ofFn fun i => v[i].acknowledge (value.getLsbD i)

/-- INTSTAT_WRITE (R129). -/
def execIntstatWrite (value : Word32) (s : State) : Host.Outcome State Fault Refusal :=
  .next <| s.onPart fun _ p => { p with notices := acknowledgeAll p.notices value }

/-- IGNORED_REGISTER_WRITE (R174): nothing changes. A write that is not ignored is another row's command. -/
def execIgnoredRegisterWrite (register : Reg) (value : Word32) (s : State) :
    Host.Outcome State Fault Refusal :=
  if ignoredWrite register value then .next s
  else .refused (.notThisCommand "IGNORED_REGISTER_WRITE")

end Sys2Proof.Machine
end

