-- ==== Sys2Proof/Machine/Post.lean ====
section
/-! DEFINITION. POST (R7, R113, R136, R139, R170): judged at the event of the write, and applied by the ring's
owner or recorded as invalid. -/

namespace Sys2Proof.Machine

/-- Record an invalid POST: the first since the last clear is latched (R170). -/
def Part.postInvalid (p : Part) (id : BitVec 4) : Part :=
  if p.device.postError then p
  else { p with device := { p.device with postError := true, latchedId := id } }

/-- A POST of ring id 0 to 7 is valid (R170). -/
def Channel.takesTail (ch : Channel) (index : Nat) : Bool :=
  ch.state != .closed && ch.state != .subordinate && decide (index < ch.ringSize)

/-- POST_STEP_TAIL's effect (R7, R170). -/
def Part.postStepTail (p : Part) (k : Clock) (c : ChanId) (index : Nat) : Part :=
  if p.chans[c].takesTail index then
    (p.setChan c { p.chans[c] with tail := index }).closeStep k p.marks
  else p.postInvalid (BitVec.ofNat 4 c)

/-- POST_STEP_TAIL (R7). -/
def execPostStepTail (channel : ChanId) (index : BitVec 16) (s : State) :
    Host.Outcome State Fault Refusal :=
  .next <| s.onPart fun k p => p.postStepTail k channel index.toNat

/-- A POST of ring id 8 to 11 is valid (R113, R170). -/
def Ring.takesHead (r : Ring) (index : Nat) : Bool :=
  r.state != .absent && decide (index < r.size) && decide (forward r.hostHead index r.size ≤ r.outstanding)

/-- Slots are returned: the host head moves and outstanding falls by the distance (R113). -/
def Ring.returned (r : Ring) (index : Nat) : Ring :=
  { r with hostHead := index, outstanding := r.outstanding - forward r.hostHead index r.size }

/-- POST_CQ_HEAD's effect (R113, R170). -/
def Part.postCqHead (p : Part) (k : Clock) (q : RingId) (index : Nat) : Part :=
  if p.rings[q].takesHead index then (p.setRing q (p.rings[q].returned index)).closeStep k p.marks
  else p.postInvalid (BitVec.ofNat 4 (8 + q.val))

/-- POST_CQ_HEAD (R113). -/
def execPostCqHead (ring : RingId) (index : BitVec 16) (s : State) : Host.Outcome State Fault Refusal :=
  .next <| s.onPart fun k p => p.postCqHead k ring index.toNat

/-- The device state lets a POST of ring id 12 or 13 be valid (R170). -/
def Device.takesAdminPost (d : Device) : Bool := d.state == .running || d.state == .adminFault

/-- POST_ADMIN_TAIL's effect (R136, R170). -/
def Part.postAdminTail (p : Part) (k : Clock) (index : Nat) : Part :=
  if p.device.takesAdminPost && decide (index < p.admin.ringSize) then
    ({ p with admin := { p.admin with tail := index } } : Part).closeStep k p.marks
  else p.postInvalid 12

/-- POST_ADMIN_TAIL (R136). -/
def execPostAdminTail (index : BitVec 16) (s : State) : Host.Outcome State Fault Refusal :=
  .next <| s.onPart fun k p => p.postAdminTail k index.toNat

/-- A POST of ring id 13 returns no more ACQ slots than are outstanding (R139, R170). -/
def Admin.takesHead (a : Admin) (index : Nat) : Bool :=
  decide (index < a.acqSize) && decide (forward a.acqHead index a.acqSize ≤ a.acqOutstanding)

/-- ACQ slots are returned (R139). -/
def Admin.returned (a : Admin) (index : Nat) : Admin :=
  { a with acqHead := index, acqOutstanding := a.acqOutstanding - forward a.acqHead index a.acqSize }

/-- POST_ACQ_HEAD's effect (R139, R170). -/
def Part.postAcqHead (p : Part) (k : Clock) (index : Nat) : Part :=
  if p.device.takesAdminPost && p.admin.takesHead index then
    ({ p with admin := p.admin.returned index } : Part).closeStep k p.marks
  else p.postInvalid 13

/-- POST_ACQ_HEAD (R139). -/
def execPostAcqHead (index : BitVec 16) (s : State) : Host.Outcome State Fault Refusal :=
  .next <| s.onPart fun k p => p.postAcqHead k index.toNat

/-- POST_RING_ID_14_15 (R170): never valid. -/
def execPostRingId1415 (id15 : Bool) (_index : BitVec 16) (s : State) :
    Host.Outcome State Fault Refusal :=
  .next <| s.onPart fun _ p => p.postInvalid (if id15 then 15 else 14)

end Sys2Proof.Machine
end

