-- ==== Sys2Proof/Machine/Timed.lean ====
section
/-! DEFINITION. The events that time and the lines bring (spec 02 to 04, R128, R149, R161). Each has its effect
in the tick in which the spec places it; an event that is not due in the current tick does not occur, and
the row then changes nothing (log entry 12). -/

namespace Sys2Proof.Machine

/-! ### When an event is due -/

/-- An interval step's capture or arming edge falls in the current tick and has not been taken (R45, R72). -/
def Channel.captureEdgeDue (ch : Channel) (k : Clock) : Bool :=
  !ch.edgeTaken && ch.runs fun r => r.isInterval && ch.intervalEdge k r

/-- A COUNT step's polarity edge on B falls in the current tick and has not been taken (R60). -/
def Channel.windowEdgeDue (ch : Channel) (k : Clock) : Bool :=
  !ch.edgeTaken && ch.runs fun r => r.isKind .count && k.edgeOf r ch.bLine

/-- The current tick is the last of a prescaled tick of the step. -/
def Channel.lastOfPrescaled (ch : Channel) (r : StepRecord) : Bool :=
  !ch.counted && ch.phase + 1 == r.prescaled

/-- An output step's counter passes top at the end of the current tick (R27, R28). -/
def Channel.cycleEndDue (ch : Channel) : Bool :=
  ch.runs fun r => r.isOutput && ch.lastOfPrescaled r && ch.counter == r.top.toNat

/-- A COUNT window ends at the end of the current tick, every edge of the tick taken (R60). -/
def Channel.windowEndDue (ch : Channel) (k : Clock) : Bool :=
  !ch.windowEdgeDue k
    && ch.runs fun r => r.isKind .count && ch.lastOfPrescaled r && ch.counter == r.top.toNat

/-- An interval counter reaches top at the end of the current gated tick, with no capture edge in it still to be
taken (R46). -/
def Channel.overrangeDue (ch : Channel) (k : Clock) : Bool :=
  !ch.captureEdgeDue k
    && ch.runs fun r => r.isInterval && ch.gated k r && ch.lastOfPrescaled r && ch.counter + 1 == r.top.toNat

/-- A WAITING AT_TIME step reaches tick start_time - 1 (R79). -/
def Channel.atTimeDue (ch : Channel) (k : Clock) : Bool :=
  match ch.evaluation with
  | .atTime target => k.tb + 1 == target
  | .none | .onMark .. => false

/-- A WAITING ON_MARK step's timeout expires in the current tick (R81). -/
def Channel.markTimeoutDue (ch : Channel) (k : Clock) : Bool :=
  match ch.evaluation with
  | .onMark _ (some expiry) => k.tb == expiry
  | .none | .atTime _ | .onMark _ none => false

/-- The hold-off timer expires in the current tick (R128). -/
def Notice.timerDue (n : Notice) (k : Clock) : Bool := n.timer == some k.tb

/-- The deadline of a WAITING CH_HALT or CH_CLOSE expires in the current tick (R141, R149). -/
def Admin.deadlineDue (a : Admin) (k : Clock) : Bool := a.unit == .waiting && a.deadline == some k.tb

/-! ### What a due event does -/

/-- One due event at channel unit `c`, with the grants and mark arrivals that follow. -/
def Part.unitEvent (p : Part) (k : Clock) (c : ChanId) (due : Bool)
    (f : UnitContext → UnitView → UnitView) : Part :=
  if due then (p.atUnit k c f).closeStep k p.marks else p

/-- CAPTURE_EDGE's effect (R45). -/
def Part.captureEdge (p : Part) (k : Clock) (c : ChanId) : Part :=
  p.unitEvent k c (p.chans[c].captureEdgeDue k) UnitView.captureEdge

/-- WINDOW_EDGE's effect (R60). -/
def Part.windowEdge (p : Part) (k : Clock) (c : ChanId) : Part :=
  p.unitEvent k c (p.chans[c].windowEdgeDue k) UnitView.windowEdge

/-- COUNT_STEP's effect (R62). -/
def Part.countStep (p : Part) (k : Clock) (c : ChanId) : Part :=
  p.unitEvent k c (p.chans[c].countStepDue k) UnitView.countStep

/-- CYCLE_END's effect (R28). -/
def Part.cycleEnd (p : Part) (k : Clock) (c : ChanId) : Part :=
  p.unitEvent k c p.chans[c].cycleEndDue UnitView.cycleEnd

/-- OVERRANGE's effect (R46). -/
def Part.overrange (p : Part) (k : Clock) (c : ChanId) : Part :=
  p.unitEvent k c (p.chans[c].overrangeDue k) UnitView.overrange

/-- WINDOW_END's effect (R60). -/
def Part.windowEnd (p : Part) (k : Clock) (c : ChanId) : Part :=
  p.unitEvent k c (p.chans[c].windowEndDue k) UnitView.windowEnd

/-- AT_TIME_SATISFIED's effect (R79). -/
def Part.atTimeSatisfied (p : Part) (k : Clock) (c : ChanId) : Part :=
  p.unitEvent k c (p.chans[c].atTimeDue k) UnitView.satisfied

/-- MARK_TIMEOUT's effect (R81). -/
def Part.markTimeout (p : Part) (k : Clock) (c : ChanId) : Part :=
  p.unitEvent k c (p.chans[c].markTimeoutDue k) UnitView.markTimeout

/-- NOTICE_TIMER_EXPIRY's effect (R127, R128). -/
def Part.noticeExpiry (p : Part) (k : Clock) (i : NoticeId) : Part :=
  if p.notices[i].timerDue k then p.setNotice i p.notices[i].raise else p

/-- The result words of a command that completes with DEADLINE: those of the report left pending (R148). -/
def Channel.pendingWords (ch : Channel) : Results :=
  match ch.pendingReport.bind Draft.haltReport with
  | some h => h.words
  | none => Results.zero

/-- The deadline of a command waiting on channel `c` expires: an active step is forced to its HALTED end, and
a report that waits for a slot is left pending (R149). -/
def Part.deadlineAt (p : Part) (k : Clock) (c : ChanId) : Part :=
  let p1 := { p with admin := { p.admin with deadline := none } }
  if p.chans[c].halt.isSome then p1.atUnit k c fun x u => u.endHalted x true
  else p1.complete .deadline p.chans[c].pendingWords

/-- DEADLINE_EXPIRY's effect (R149). -/
def Part.deadlineExpiry (p : Part) (k : Clock) : Part :=
  if p.admin.deadlineDue k then
    match p.admin.waitingOn with
    | .channel c => (p.deadlineAt k c).closeStep k p.marks
    | .nothing | .ring _ => p
  else p

/-- RESPONSE_LIMIT_EXPIRY's effect: the transaction is withdrawn and ends as an error (R161). -/
def Part.limitExpiry (p : Part) (k : Clock) : Part :=
  if p.port.limitDue k then
    ({ p with port := p.port.withdraws } : Part).ended k fun kind => some fun p1 => p1.failed k kind
  else p

/-! ### The rows -/

/-- RESPONSE_LIMIT_EXPIRY (R161). -/
def execResponseLimitExpiry (s : State) : Host.Outcome State Fault Refusal :=
  .next <| s.onPart fun k p => p.limitExpiry k

/-- NOTICE_TIMER_EXPIRY (R128). -/
def execNoticeTimerExpiry (context : NoticeId) (s : State) : Host.Outcome State Fault Refusal :=
  .next <| s.onPart fun k p => p.noticeExpiry k context

/-- DEADLINE_EXPIRY (R149). -/
def execDeadlineExpiry (s : State) : Host.Outcome State Fault Refusal :=
  .next <| s.onPart fun k p => p.deadlineExpiry k

/-- AT_TIME_SATISFIED (R79). -/
def execAtTimeSatisfied (channel : ChanId) (s : State) : Host.Outcome State Fault Refusal :=
  .next <| s.onPart fun k p => p.atTimeSatisfied k channel

/-- MARK_TIMEOUT (R81). -/
def execMarkTimeout (channel : ChanId) (s : State) : Host.Outcome State Fault Refusal :=
  .next <| s.onPart fun k p => p.markTimeout k channel

/-- CYCLE_END (R28). -/
def execCycleEnd (channel : ChanId) (s : State) : Host.Outcome State Fault Refusal :=
  .next <| s.onPart fun k p => p.cycleEnd k channel

/-- OVERRANGE (R46). -/
def execOverrange (channel : ChanId) (s : State) : Host.Outcome State Fault Refusal :=
  .next <| s.onPart fun k p => p.overrange k channel

/-- WINDOW_END (R60). -/
def execWindowEnd (channel : ChanId) (s : State) : Host.Outcome State Fault Refusal :=
  .next <| s.onPart fun k p => p.windowEnd k channel

/-- CAPTURE_EDGE (R45). -/
def execCaptureEdge (channel : ChanId) (s : State) : Host.Outcome State Fault Refusal :=
  .next <| s.onPart fun k p => p.captureEdge k channel

/-- WINDOW_EDGE (R60). -/
def execWindowEdge (channel : ChanId) (s : State) : Host.Outcome State Fault Refusal :=
  .next <| s.onPart fun k p => p.windowEdge k channel

/-- COUNT_STEP (R62). -/
def execCountStep (channel : ChanId) (s : State) : Host.Outcome State Fault Refusal :=
  .next <| s.onPart fun k p => p.countStep k channel

end Sys2Proof.Machine
end

