-- ==== Sys2Proof/Machine/Tick.lean ====
section
/-! DEFINITION. TICK: the current tick ends and the next begins (R68, R70, R71, R84, R131). -/

namespace Sys2Proof.Machine

/-! ### Events of the ending tick that have not been taken -/

/-- An event that the current tick brings by itself (R70). -/
inductive TimedEvent where
  | captureEdge (c : ChanId)
  | windowEdge (c : ChanId)
  | countStep (c : ChanId)
  | cycleEnd (c : ChanId)
  | overrange (c : ChanId)
  | windowEnd (c : ChanId)
  | atTime (c : ChanId)
  | markTimeout (c : ChanId)
  | notice (i : NoticeId)
  | deadline
  | responseLimit
  deriving DecidableEq, Repr

/-- Take an event; nothing where it is not due. -/
def Part.fire (p : Part) (k : Clock) : TimedEvent → Part
  | .captureEdge c => p.captureEdge k c
  | .windowEdge c => p.windowEdge k c
  | .countStep c => p.countStep k c
  | .cycleEnd c => p.cycleEnd k c
  | .overrange c => p.overrange k c
  | .windowEnd c => p.windowEnd k c
  | .atTime c => p.atTimeSatisfied k c
  | .markTimeout c => p.markTimeout k c
  | .notice i => p.noticeExpiry k i
  | .deadline => p.deadlineExpiry k
  | .responseLimit => p.limitExpiry k

/-- The events of channel `c` that are due in the current tick. -/
def Part.dueAt (p : Part) (k : Clock) (c : ChanId) : List TimedEvent :=
  let ch := p.chans[c]
  (if ch.captureEdgeDue k then [.captureEdge c] else [])
    ++ (if ch.windowEdgeDue k then [.windowEdge c] else [])
    ++ (if ch.countStepDue k then [.countStep c] else [])
    ++ (if ch.cycleEndDue then [.cycleEnd c] else [])
    ++ (if ch.overrangeDue k then [.overrange c] else [])
    ++ (if ch.windowEndDue k then [.windowEnd c] else [])
    ++ (if ch.atTimeDue k then [.atTime c] else [])
    ++ (if ch.markTimeoutDue k then [.markTimeout c] else [])

/-- Every event that is due in the current tick and has not been taken. -/
def Part.due (p : Part) (k : Clock) : List TimedEvent :=
  allChans.flatMap (p.dueAt k)
    ++ ([0, 1, 2, 3, 4] : List NoticeId).flatMap
        (fun i => if p.notices[i].timerDue k then [.notice i] else [])
    ++ (if p.admin.deadlineDue k then [.deadline] else [])
    ++ (if p.port.limitDue k then [.responseLimit] else [])

/-- The order of this event among the others of its tick does not matter: it touches nothing that channels share, no
mark of another event can change its outcome, as it can a MARK_TIMEOUT's (R81), and no deadline expires, which could
end the very step of the event (R149). -/
def Part.orderIsIdle (p : Part) (k : Clock) (e : TimedEvent) : Bool :=
  match e with
  | .markTimeout _ => false
  | .captureEdge _ | .windowEdge _ | .countStep _ | .cycleEnd _ | .overrange _ | .windowEnd _ | .atTime _
  | .notice _ | .deadline | .responseLimit => !p.admin.deadlineDue k && (p.fire k e).agreesOnShared p

/-- Take the events of the ending tick that no command has taken, one after the other (R70, log entry 13). -/
def Part.takeDue (k : Clock) : Nat → Part → Part
  | 0, p => p
  | fuel + 1, p =>
    match chooseNext (p.orderIsIdle k) p.choices (p.due k) with
    | none => p
    | some (e, used) => Part.takeDue k fuel ((p.noteChoice used).fire k e)

/-- How many events one tick can bring: at most three to a channel, five notice timers, a deadline and a
response limit. -/
def dueLimit : Nat := 64

/-! ### The end of the tick -/

/-- Every channel's counter at the end of the tick (R27, R44, R73). -/
def endTicks (k : Clock) (chans : Vector Channel 8) : Vector Channel 8 :=
  Vector.ofFn fun c => chans[c].endTick k

/-- The drives of every active output step for the tick that begins (R87). -/
def driveAll (chans : Vector Channel 8) (lines : Vector LineEntry 16) : Vector LineEntry 16 :=
  allChans.foldl (fun l c => driveLines l chans[c]) lines

/-- The blocks at the end of a tick, its events taken: counters advance, drives take the next tick's levels,
and the mark bus falls silent (R27, R44, R74, R87). -/
def Part.endTick (p : Part) (k : Clock) : Part :=
  let chans := endTicks k p.chans
  { p with
    chans := chans
    lines := driveAll chans p.lines
    marks := Vector.replicate 8 false }

/-- The tick ends: TB advances, the lines of the next tick are sampled, and the interrupt line shows the
condition that the tick left (R68, R71, R84, R131). -/
def State.endTick (s : State) (pins : BitVec 16) : State :=
  let p := s.part.endTick s.clock
  { s with
    tb := s.tb + 1
    pins := pins
    sample := sampleLines p.lines pins
    previous := some s.sample
    irq := s.part.interrupt
    part := p }

/-- TICK (R68): the events of the ending tick that no command has taken are taken, and the tick ends. -/
def execTick (pins : BitVec 16) (s : State) : Host.Outcome State Fault Refusal :=
  .next <| (s.onPart fun k p => Part.takeDue k dueLimit p).endTick pins

end Sys2Proof.Machine
end

