-- ==== Sys2Proof/Machine/Dispatch.lean ====
section
/-! DEFINITION. The meaning of every row of the table, one arm per constructor of Instr. -/

namespace Sys2Proof.Machine

def exec (i : Instr) (s : State) : Host.Outcome State Fault Refusal :=
  match i with
  | .hardReset pins => Sys2Proof.Machine.execHardReset pins s
  | .reset => Sys2Proof.Machine.execReset s
  | .enable => Sys2Proof.Machine.execEnable s
  | .restartAdmin => Sys2Proof.Machine.execRestartAdmin s
  | .tbloRead => Sys2Proof.Machine.execTbloRead s
  | .devstatWrite value => Sys2Proof.Machine.execDevstatWrite value s
  | .cfgbaseWrite value => Sys2Proof.Machine.execCfgbaseWrite value s
  | .intstatWrite value => Sys2Proof.Machine.execIntstatWrite value s
  | .ignoredRegisterWrite register value => Sys2Proof.Machine.execIgnoredRegisterWrite register value s
  | .postStepTail channel index => Sys2Proof.Machine.execPostStepTail channel index s
  | .postCqHead ring index => Sys2Proof.Machine.execPostCqHead ring index s
  | .postAdminTail index => Sys2Proof.Machine.execPostAdminTail index s
  | .postAcqHead index => Sys2Proof.Machine.execPostAcqHead index s
  | .nop record => Sys2Proof.Machine.execNop record s
  | .cqCreate record => Sys2Proof.Machine.execCqCreate record s
  | .cqDelete record => Sys2Proof.Machine.execCqDelete record s
  | .cqReset record => Sys2Proof.Machine.execCqReset record s
  | .cqNotice record => Sys2Proof.Machine.execCqNotice record s
  | .chOpen record => Sys2Proof.Machine.execChOpen record s
  | .chHalt record => Sys2Proof.Machine.execChHalt record s
  | .chClose record => Sys2Proof.Machine.execChClose record s
  | .chResume record => Sys2Proof.Machine.execChResume record s
  | .chRead record => Sys2Proof.Machine.execChRead record s
  | .pairJoin record => Sys2Proof.Machine.execPairJoin record s
  | .pairSplit record => Sys2Proof.Machine.execPairSplit record s
  | .posSet record => Sys2Proof.Machine.execPosSet record s
  | .linePark record => Sys2Proof.Machine.execLinePark record s
  | .badOpcode opcode record => Sys2Proof.Machine.execBadOpcode opcode record s
  | .adminReadError => Sys2Proof.Machine.execAdminReadError s
  | .acqWriteDone => Sys2Proof.Machine.execAcqWriteDone s
  | .acqWriteError => Sys2Proof.Machine.execAcqWriteError s
  | .configReadReturn block => Sys2Proof.Machine.execConfigReadReturn block s
  | .configReadError => Sys2Proof.Machine.execConfigReadError s
  | .stepReadReturn record => Sys2Proof.Machine.execStepReadReturn record s
  | .stepReadError => Sys2Proof.Machine.execStepReadError s
  | .entryWriteDone => Sys2Proof.Machine.execEntryWriteDone s
  | .entryWriteError => Sys2Proof.Machine.execEntryWriteError s
  | .discardedTransactionEnd => Sys2Proof.Machine.execDiscardedTransactionEnd s
  | .responseLimitExpiry => Sys2Proof.Machine.execResponseLimitExpiry s
  | .noticeTimerExpiry context => Sys2Proof.Machine.execNoticeTimerExpiry context s
  | .deadlineExpiry => Sys2Proof.Machine.execDeadlineExpiry s
  | .atTimeSatisfied channel => Sys2Proof.Machine.execAtTimeSatisfied channel s
  | .markTimeout channel => Sys2Proof.Machine.execMarkTimeout channel s
  | .cycleEnd channel => Sys2Proof.Machine.execCycleEnd channel s
  | .overrange channel => Sys2Proof.Machine.execOverrange channel s
  | .windowEnd channel => Sys2Proof.Machine.execWindowEnd channel s
  | .captureEdge channel => Sys2Proof.Machine.execCaptureEdge channel s
  | .windowEdge channel => Sys2Proof.Machine.execWindowEdge channel s
  | .countStep channel => Sys2Proof.Machine.execCountStep channel s
  | .tick pins => Sys2Proof.Machine.execTick pins s
  | .postRingId1415 id15 index => Sys2Proof.Machine.execPostRingId1415 id15 index s

end Sys2Proof.Machine
end

