-- ==== Sys2Proof/Safety.lean ====
section
/-! DEFINITION. The terms in which claims are made: what the port carries, the pool with an entry admitted, and
the laws of the part that every command keeps. -/

namespace Sys2Proof.Machine

/-! ### Where a command finds the part -/

/-- The port carries a transaction of kind `kind` whose result goes to its requester (R157, R163). -/
abbrev Port.carries (t : Port) (kind : TxKind) : Prop :=
  t.discard = false ∧ t.current.map Transaction.kind = some kind

/-- The port waits for the late answer to a withdrawn transaction of a kind like `kind` (R161, log entry 37). -/
abbrev Port.lateLike (t : Port) (kind : TxKind) : Prop := ∃ old ∈ t.withdrawn, old.alike kind = true

/-- The port carries a live transaction of kind `kind`, and an answer to one of its kind is the answer to it: no
late answer of the kind is to come (R161). -/
abbrev Port.answers (t : Port) (kind : TxKind) : Prop := t.carries kind ∧ ¬ t.lateLike kind

/-- The port once a late answer to a transaction of a kind like `kind` has arrived, and been ignored (R161). -/
def Port.lateIgnored (t : Port) (kind : TxKind) : Port :=
  { t with withdrawn := t.withdrawn.eraseP fun old => old.alike kind }

/-- A state with another part. -/
def State.withPart (s : State) (p : Part) : State := { s with part := p }

/-- The part as a command finds it that the admin read returns: the transaction has ended, and the record is
the current command (R135). -/
def State.taken (s : State) (opcode : BitVec 8) (r : CommandRecord) : Part :=
  s.part.endTransaction.take opcode r

/-- The state after a command that leaves the part `p`, with the arbiter's grant (R159). -/
def State.granted (s : State) (p : Part) : State := s.withPart (p.grant s.tb)

/-- The first status whose check fails, in the order listed; OK where none fails (R137). -/
def firstFailing : List (Bool × AdminStatus) → AdminStatus
  | [] => .ok
  | (holds, status) :: rest => if holds then firstFailing rest else status

/-! ### Staged entries, as a claim names them (R54, R101, R104, R106) -/

/-- The pool with an entry of channel `c` admitted into a slot and appended to the list of ring `q`: the entry
takes the channel's seq and missed tally as they stand (R104, R106). -/
def Part.poolWith (p : Part) (c : ChanId) (q : RingId) (slot : SlotKind) (time : Ticks) (body : EntryBody) :
    Pool :=
  { p.pool with lists := p.pool.lists.set q (p.pool.lists[q] ++
      [{ slot := slot
         entry :=
          { draft := { channel := c, time := time, body := body }
            seq := p.chans[c].seq
            missed := p.chans[c].missed } }]) }

/-- The pool after a capture-class entry was offered: admitted into a free shared slot, or dropped (R106). -/
def Part.poolAfterCapture (p : Part) (c : ChanId) (q : RingId) (time : Ticks) (body : EntryBody) : Pool :=
  if p.pool.hasShared then p.poolWith c q .shared time body else p.pool

/-- The slot a final report takes: a shared one where one is free, else the reserved one (R106). -/
def Pool.slotForReport (p : Pool) : SlotKind := if p.hasShared then .shared else .reserved

/-- A channel's seq and missed tally after an entry of it was admitted (R104, R54). -/
def Channel.afterAdmission (ch : Channel) : Channel := { ch with seq := ch.seq + 1, missed := 0 }

/-- A channel's seq and missed tally after a capture-class entry was offered: admitted, or dropped and counted
up to 255 (R54). -/
def Channel.afterCapture (ch : Channel) (admitted : Bool) : Channel :=
  if admitted then ch.afterAdmission else { ch with missed := addUpTo 255 ch.missed }

/-! ### Steps that start and end, as a claim names them (R13 to R17, R22, R31, R33, R34) -/

/-- The drives of the lines in the first tick of step `r` on channel `ch` (R31, R33, R87). -/
def linesAtStart (lines : Vector LineEntry 16) (ch : Channel) (r : StepRecord) : Vector LineEntry 16 :=
  if r.isOutput then
    setDrives lines ch (.ofLevel (r.bLevel 0 true)) (r.aDrive 0 0 (r.bLevel 0 true))
  else lines

/-- A channel as the step `e` starts on it with nothing behind it (R14, R28, R43). -/
def startedChannel (ch : Channel) (e : Step) (late held : Bool) : Channel :=
  { ch with
    state := .active, active := some e, queue := [], armed := .none, evaluation := .none
    startLate := late, startHeld := held
    counter := 0, phase := 0, strikes := 0, acc := { min := 0, max := 0, sum := 0, n := 0 }
    cycleCount := 0, oddCycle := true, okCount := 0, edgeCount := 0, thresholdCount := 0
    intervalArmed := false, running := false, counted := true, edgeTaken := false
    position := if e.record.kindOf = some .position ∧ e.record.zeroPos = true then 0 else ch.position }

/-- The lines of channel `ch` after its output step `r` ended with no step starting at the event (R34, R88): HOLD leaves
the drives as they stand, and PARK leaves both lines undriven. -/
def linesAfterEnd (lines : Vector LineEntry 16) (ch : Channel) (r : StepRecord) : Vector LineEntry 16 :=
  if r.isOutput ∧ r.endPark then setDrives lines ch .none .none else lines

/-- The value of the STEP_DONE of a step that ran: the cycles or captures completed, or the position register (R29, R55,
R67; log entry 35). -/
def endValue (ch : Channel) (r : StepRecord) : Nat :=
  if r.isOutput then ch.cycleCount else if r.isKind .position then ch.position else ch.okCount

/-- The fields of the STEP_DONE of a step that ran to an end of its own (R15 to R17, R29, R55, R102). -/
def endedBody (ch : Channel) (e : Step) (status : DoneStatus) : EntryBody :=
  .stepDone
    { tag := e.record.tag
      status := status
      flags :=
        { late := ch.startLate, heldStart := ch.startHeld
          underrun := decide (ch.queue = [] ∧ ch.fetchIndex ≠ ch.tail), forced := false }
      value := endValue ch e.record
      sqHead := if e.index + 1 < ch.ringSize then e.index + 1 else 0
      flushed := 0, fetchError := false, firstTag := 0
      stats := if e.record.summary then some ch.acc else none }

/-- The fields of the STEP_DONE of a step that a halt request ended (R16, R21, R149). -/
def haltedBody (ch : Channel) (e : Step) (flushed : Nat) (firstTag : BitVec 16) (forced : Bool) : EntryBody :=
  .stepDone
    { tag := e.record.tag
      status := .halted
      flags := { late := ch.startLate, heldStart := ch.startHeld, underrun := false, forced := forced }
      value := endValue ch e.record
      sqHead := ch.fetchIndex, flushed := flushed, fetchError := ch.fetchFault, firstTag := firstTag
      stats := if e.record.summary then some ch.acc else none }

/-- Channel `ch` after its step ended with nothing behind it (R3). -/
def endedChannel (ch : Channel) : Channel :=
  { ch with state := .idle, active := none, running := false }

/-- Channel `ch` after its halt request was carried out: STOPPED, or CLOSED with its claims released and its bound
ring kept for a pending report only (R22). -/
def haltedChannel (ch : Channel) (close : Bool) : Channel :=
  let stopped := { ch with
    state := .stopped, active := none, running := false, queue := [], armed := .none
    evaluation := .none, halt := none }
  if close then
    { stopped with
      state := .closed, cls := none, bLine := none, aLine := none
      bound := if ch.pendingReport.isSome then ch.bound else none }
  else stopped

/-- The lines after channel `c` carried out its halt request with step `r` active: its claims released where it
closes (R22, R89), else as the step's end leaves them (R34, R88). -/
def linesAfterHalt (lines : Vector LineEntry 16) (c : ChanId) (ch : Channel) (r : StepRecord) (close : Bool) :
    Vector LineEntry 16 :=
  if close then
    updateLine (updateLine lines ch.bLine (LineEntry.release c)) ch.aLine (LineEntry.release c)
  else linesAfterEnd lines ch r

/-! ### An edge of a POSITION step, as a claim names it (R62 to R64) -/

/-- The part after an edge on B was counted by the POSITION step `r` of channel `c`: the position moves by one, DOWN
where B rises with A high before the edge or falls with A low, modulo the channel's width; a wrap offers a WRAP; an
arrival at a threshold offers a THRESHOLD, at thr_a where the two are equal, is counted and emits CYCLE. -/
def Part.edgeCounted (p : Part) (k : Clock) (c : ChanId) (q : RingId) (r : StepRecord) : Part :=
  let ch := p.chans[c]
  let greatest := if p.wide c then 4294967295 else 65535
  let down := decide (k.rises ch.bLine = k.before ch.aLine)
  let after := if down then (if ch.position = 0 then greatest else ch.position - 1)
    else (if ch.position = greatest then 0 else ch.position + 1)
  let wrapped := if down then ch.position = 0 else ch.position = greatest
  let moved : Channel := { ch with position := after, edgeTaken := true }
  let u := if wrapped then moved.afterCapture p.pool.hasShared else moved
  let p1 : Part := { p with
    chans := p.chans.set c u
    pool := if wrapped then p.poolAfterCapture c q k.tb (.wrap r.tag down) else p.pool }
  if after = r.top.toNat ∨ after = r.cmp.toNat then
    { p1 with
      chans := p.chans.set c
        { u.afterCapture p1.pool.hasShared with thresholdCount := ch.thresholdCount + 1 }
      pool := p1.poolAfterCapture c q k.tb (.threshold r.tag (decide (after ≠ r.top.toNat)) down after)
      marks := if r.markCycle then p.marks.set c true else p.marks }
  else p1

/-! ### The part after a step's end, as a claim names it (R15, R21, R22, R25, R149) -/

/-- The part after the active step `e` of channel `c` ended with nothing behind it: its report is staged, its END
mark emitted, and its lines show its end behaviour (R15, R34). -/
def Part.stepEnded (p : Part) (c : ChanId) (q : RingId) (tb : Ticks) (e : Step) (status : DoneStatus) : Part :=
  { p with
    chans := p.chans.set c (endedChannel p.chans[c]).afterAdmission
    lines := linesAfterEnd p.lines p.chans[c] e.record
    pool := p.poolWith c q p.pool.slotForReport tb (endedBody p.chans[c] e status)
    marks := if e.record.markEnd then p.marks.set c true else p.marks }

/-- The fields of the STEP_DONE of a step that was removed before it started (R10, R16, R17). -/
def removedBody (ch : Channel) (e : Step) (status : DoneStatus) (value : Nat) (underrun : Bool) : EntryBody :=
  .stepDone
    { tag := e.record.tag, status := status
      flags := { late := false, heldStart := false, underrun := underrun, forced := false }
      value := value
      sqHead := if e.index + 1 < ch.ringSize then e.index + 1 else 0
      flushed := 0, fetchError := false, firstTag := 0, stats := none }

/-- The part once the steps behind an active step of channel `c` have been armed in their turn (R8, R10, R14): one that
passes validation stays, armed GOOD; one that fails leaves the window with its BAD_STEP report where a shared slot is
free, and the step after it is armed at the same event; where none is free it stays armed with its report. -/
def Part.armBehind (c : ChanId) (q : RingId) (tb : Ticks) : List Step → Part → Part
  | [], p => p
  | e :: rest, p =>
    match validate p.chans[c] (p.wide c) e.record with
    | none => { p with chans := p.chans.set c { p.chans[c] with queue := e :: rest, armed := .good } }
    | some code =>
      if p.pool.hasShared then
        Part.armBehind c q tb rest
          { p with
            chans := p.chans.set c { p.chans[c].afterAdmission with queue := rest, armed := .none }
            pool := p.poolWith c q .shared tb (removedBody p.chans[c] e .badStep code false) }
      else
        { p with chans := p.chans.set c { p.chans[c] with
            queue := e :: rest, armed := .removal .badStep code tb } }

/-- The step `e` runs on when the steps behind it are armed: none of them is IMMEDIATE, and `e` is no continuous
POSITION step (R13, R18, R67). With nothing behind it, every step does. -/
abbrev Step.runsOn (e : Step) (behind : List Step) : Prop :=
  ∀ x ∈ behind, x.record.start ≠ 1 ∧ ¬ (e.record.kindOf = some .position ∧ e.record.count = 0)

/-- The part after the step `e2` started on channel `c`, with the steps `behind` after it in the window (R8, R14,
R33). -/
def Part.stepStarts (p : Part) (c : ChanId) (q : RingId) (tb : Ticks) (e2 : Step) (late held : Bool)
    (behind : List Step) : Part :=
  Part.armBehind c q tb behind
    { p with
      chans := p.chans.set c (startedChannel p.chans[c] e2 late held)
      lines := linesAtStart p.lines p.chans[c] e2.record
      marks := if e2.record.markStart then p.marks.set c true else p.marks }

/-- The part after a CHAIN or IMMEDIATE step `e2`, armed GOOD on channel `c` with nothing active, proceeded: it starts,
or is HELD where the reserved slot is occupied (R11, R12). -/
def Part.chainProceeds (p : Part) (c : ChanId) (q : RingId) (tb : Ticks) (e2 : Step) (behind : List Step) : Part :=
  if p.pool.reservedBusy c then
    { p with chans := p.chans.set c { p.chans[c] with
        state := .held, queue := e2 :: behind, armed := .due false true } }
  else p.stepStarts c q tb e2 false false behind

/-- The part after the active step `e` of channel `c` ended with its report in a shared slot, and the step `e2`
started at the same event, LATE where an AT_TIME step is, with the steps `behind` after it (R11, R15, R18, R78). -/
def Part.stepHandsOver (p : Part) (c : ChanId) (q : RingId) (tb : Ticks) (e : Step) (status : DoneStatus)
    (e2 : Step) (late : Bool := false) (behind : List Step := []) : Part :=
  Part.stepStarts
    { p with
      chans := p.chans.set c p.chans[c].afterAdmission
      pool := p.poolWith c q .shared tb (endedBody p.chans[c] e status)
      marks := if e.record.markEnd then p.marks.set c true else p.marks } c q tb e2 late false behind

/-- The part after the active step `e` of channel `c` ended with its report in the reserved slot, and the step `e2`
behind it, whose start is due at the same event, is HELD for that slot (R12, R15); the lines show the end behaviour
of `e` (R34, R88). -/
def Part.stepHolds (p : Part) (c : ChanId) (q : RingId) (tb : Ticks) (e : Step) (status : DoneStatus) (e2 : Step)
    (late : Bool := false) (behind : List Step := []) : Part :=
  { p with
    chans := p.chans.set c { (endedChannel p.chans[c]).afterAdmission with
      state := .held, queue := e2 :: behind, armed := .due late true }
    lines := linesAfterEnd p.lines p.chans[c] e.record
    pool := p.poolWith c q .reserved tb (endedBody p.chans[c] e status)
    marks := if e.record.markEnd then p.marks.set c true else p.marks }

/-- The part after channel `c` ended its active step `e` HALTED under the request `h`: the admin command that
waits on the channel completes (R21, R149). -/
def Part.stepHalted (p : Part) (c : ChanId) (q : RingId) (tb : Ticks) (e : Step) (h : HaltRequest)
    (forced : Bool) : Part :=
  let ch := p.chans[c]
  let halted : Part := { p with
    chans := p.chans.set c (haltedChannel ch h.close).afterAdmission
    lines := linesAfterHalt p.lines c ch e.record h.close
    pool := p.poolWith c q p.pool.slotForReport tb (haltedBody ch e h.flushed h.firstTag forced)
    marks := if e.record.markEnd then p.marks.set c true else p.marks }
  if p.admin.unit = .waiting ∧ p.admin.waitingOn = .channel c then
    halted.complete .ok ⟨1, BitVec.ofNat 32 h.flushed, BitVec.ofNat 32 ch.fetchIndex, 0⟩
  else halted

/-- The part after channel `c` composed a FLUSH or a FAULT: staged, or pending where no slot can take it (R20, R25,
R106). -/
def Part.reportComposed (p : Part) (c : ChanId) (q : RingId) (tb : Ticks) (body : EntryBody) : Part :=
  if p.pool.hasShared = true ∨ p.pool.reservedBusy c = false then
    { p with
      chans := p.chans.set c p.chans[c].afterAdmission
      pool := p.poolWith c q p.pool.slotForReport tb body }
  else
    { p with chans := p.chans.set c { p.chans[c] with
        pendingReport := some { channel := c, time := tb, body := body } } }

/-- The part after the pending report `d` of channel `c` was admitted into a slot; a CLOSED channel lets its bound
ring go, and a FLUSH completes the command that waits on the channel (R22, R23, R149). -/
def Part.pendingStaged (p : Part) (c : ChanId) (q : RingId) (slot : SlotKind) (d : Draft) : Part :=
  let ch := p.chans[c]
  let staged : Part := { p with
    chans := p.chans.set c { ch.afterAdmission with
      pendingReport := none, bound := if ch.state = .closed then none else some q }
    pool := { p.pool with lists := p.pool.lists.set q (p.pool.lists[q] ++
      [{ slot := slot, entry := { draft := d, seq := ch.seq, missed := ch.missed } }]) } }
  match d.body with
  | .flush n _ sqHead _ =>
    if p.admin.unit = .waiting ∧ p.admin.waitingOn = .channel c then
      staged.complete .ok ⟨2, BitVec.ofNat 32 n, BitVec.ofNat 32 sqHead, 0⟩
    else staged
  | _ => staged

/-- The part after the removal report of the armed step `e` of channel `c` was admitted into a slot: the step leaves the
window to the steps `behind` it; a channel with nothing active and an empty window is IDLE (R10, R16, R17). -/
def Part.removalStaged (p : Part) (c : ChanId) (q : RingId) (slot : SlotKind) (time : Ticks) (e : Step)
    (status : DoneStatus) (value : Nat) (behind : List Step := []) : Part :=
  let ch := p.chans[c]
  { p with
    chans := p.chans.set c { ch.afterAdmission with
      state := if ch.active.isSome then .active else .idle, queue := behind, armed := .none }
    pool := p.poolWith c q slot time (removedBody ch e status value
      (ch.active.isNone && behind.isEmpty && decide (ch.fetchIndex ≠ ch.tail))) }

/-- The lateness of the AT_TIME step `r` at an event of tick `tb`, modulo 2^48 (R78). -/
def StepRecord.lateness (r : StepRecord) (tb : Ticks) : Nat := (r.startTime - (tb + 1)).toNat

/-- The step is judged LATE_SKIPPED: AT_TIME, strict, and late (R78). -/
abbrev StepRecord.isSkipped (r : StepRecord) (tb : Ticks) : Prop :=
  r.start = 2 ∧ 2 ^ 47 ≤ r.lateness tb ∧ r.strict = true

/-- The part after the active step `e` of channel `c` ended with `status` and the step `e2` behind it, armed GOOD,
proceeded at the same event (R11, R12, R15, R18). An AT_TIME step that is early and an ON_MARK step wait (R77, R78, R81); a
late strict AT_TIME step is removed, or HELD until its report can be staged (R10, R78); every other step starts, LATE
where it is a late AT_TIME step, or is HELD where the STEP_DONE took the reserved slot. -/
def Part.stepFollowed (p : Part) (c : ChanId) (q : RingId) (tb : Ticks) (e : Step) (status : DoneStatus) (e2 : Step)
    (behind : List Step) : Part :=
  let r := e2.record
  let d := r.lateness tb
  let ended := p.stepEnded c q tb e status
  let stays (state : ChState) (armed : Armed) (evaluation : Evaluation) : Part :=
    { ended with chans := ended.chans.set c { ended.chans[c] with
        state := state, armed := armed, evaluation := evaluation } }
  if r.start = 2 ∧ 0 < d ∧ d < 2 ^ 47 then stays .waiting .good (.atTime r.startTime)
  else if r.start = 3 then
    stays .waiting .good (.onMark (Fin.ofNat 8 r.markSource.toNat)
      (if r.startTimeout = 0 then none else some (tb + r.startTimeout.setWidth 48)))
  else if r.isSkipped tb then
    let value := min (2 ^ 48 - d) 4294967295
    if p.pool.hasShared then ended.removalStaged c q ended.pool.slotForReport tb e2 .lateSkipped value behind
    else stays .held (.removal .lateSkipped value tb) .none
  else if p.pool.hasShared then p.stepHandsOver c q tb e status e2 (decide (r.start = 2 ∧ d ≠ 0)) behind
  else p.stepHolds c q tb e status e2 (decide (r.start = 2 ∧ d ≠ 0)) behind

/-! ### The laws of a channel (R3, R4, R96) -/

/-- An open channel takes its state from its window (R3); a channel CLOSED, STOPPED or SUBORDINATE has an
empty window and no halt request; a halt request stands only behind an active step, with nothing else in the
window (R20), and never at a POSITION step, which ends at the event the request is taken (R67); a condition is
evaluated only for a GOOD armed step with nothing active (R77); and there is an armed outcome only where there is an
armed step. -/
abbrev Channel.Law (ch : Channel) : Prop :=
  (ch.state = .active ↔ ch.active.isSome = true)
    ∧ (ch.state = .waiting ↔ ch.evaluation ≠ .none)
    ∧ (ch.state = .held → ch.active = none ∧ ch.queue ≠ [] ∧ ch.evaluation = .none)
    ∧ (ch.state = .idle ∨ ch.state = .closed ∨ ch.state = .stopped ∨ ch.state = .subordinate →
        ch.active = none ∧ ch.queue = [])
    ∧ (ch.halt.isSome = true → ch.active.isSome = true ∧ ch.queue = [])
    ∧ (∀ e ∈ ch.active, e.record.isKind .position = true → ch.halt = none)
    ∧ (ch.evaluation ≠ .none → ch.armed = .good ∧ ch.active = none ∧ ch.queue ≠ [])
    ∧ (ch.queue = [] → ch.armed = .none)

/-- Every channel keeps its law. -/
abbrev Part.ChannelLaw (p : Part) : Prop := ∀ c : ChanId, p.chans[c].Law

/-- While a step runs, its counter lies within 0 to top, an interval step's below top, and its prescaler phase below
2^p (R27, R43, R46, R60, R73); and an interval step that is armed GOOD has a top of at least 1 (R50). -/
abbrev Channel.CounterLaw (ch : Channel) : Prop :=
  (∀ e ∈ ch.active, ch.phase < 2 ^ e.record.prescale.toNat ∧ ch.counter ≤ e.record.top.toNat
      ∧ (e.record.isInterval = true → ch.counter < e.record.top.toNat))
    ∧ (ch.armed.isGood = true → ∀ e ∈ ch.queue.head?, e.record.isInterval = true → 1 ≤ e.record.top.toNat)

/-- Every channel's counter keeps its law. -/
abbrev Part.CounterLaw (p : Part) : Prop := ∀ c : ChanId, p.chans[c].CounterLaw

/-- The odd channel of pair `j`. -/
def oddOf (j : Fin 4) : ChanId := ⟨2 * j.val + 1, by omega⟩

/-- The even channel of pair `j`. -/
def evenOf (j : Fin 4) : ChanId := ⟨2 * j.val, by omega⟩

/-- The odd channel of a joined pair is SUBORDINATE, and no other channel is (R93); a SUBORDINATE channel holds
the values of R1 but for its state and the fetcher's two flags (R95, R96). -/
abbrev Part.PairLaw (p : Part) : Prop :=
  (∀ j : Fin 4, p.pairs[j] = true ↔ p.chans[oddOf j].state = .subordinate)
    ∧ (∀ j : Fin 4, p.chans[evenOf j].state ≠ .subordinate)
    ∧ (∀ c : ChanId, p.chans[c].state = .subordinate → p.chans[c] = p.chans[c].blank .subordinate)

/-- Only a channel of class OUTPUT that is not CLOSED or SUBORDINATE owns a line, and it owns only the lines it
claims; a channel's two claims name two lines (R85). -/
abbrev Part.LineLaw (p : Part) : Prop :=
  (∀ (i : LineId) (c : ChanId), p.lines[i].owner = some c →
      p.chans[c].cls = some .output ∧ p.chans[c].state ≠ .closed ∧ p.chans[c].state ≠ .subordinate
        ∧ (p.chans[c].bLine = some i ∨ p.chans[c].aLine = some i))
    ∧ (∀ (i : LineId) (c : ChanId), p.chans[c].bLine = some i → p.chans[c].aLine ≠ some i)

/-- The laws of channels, pairs and lines together. -/
abbrev Part.ClaimLaw (p : Part) : Prop := p.ChannelLaw ∧ p.PairLaw ∧ p.LineLaw

/-- How many ring slots the fetcher has read since the one that an element of the window was read from (R4, R6). -/
def Channel.age (ch : Channel) (e : Step) : Nat := (ch.fetchIndex + ch.ringSize - 1 - e.index) % ch.ringSize

/-- A window holds at most four steps of the ring (R4). The steps behind the active one are those of the ring slots
just before the fetch index, in the order of their slots (R4, R6); the active step is the one fetched before them, or
one of a slot that has been read again since (R5, R160, log entry 32). A channel that is open fetches within its ring,
which has at least four slots (R147); a STOPPED channel has an empty window, and one with a halt request nothing behind
its active step (R20). -/
abbrev Channel.OrderLaw (ch : Channel) : Prop :=
  ch.window.length ≤ 4
    ∧ (∀ e ∈ ch.window, e.index < ch.ringSize)
    ∧ ch.queue.map ch.age = (List.range ch.queue.length).reverse
    ∧ (ch.state ≠ .closed → ch.state ≠ .subordinate → ch.fetchIndex < ch.ringSize ∧ 4 ≤ ch.ringSize)
    ∧ (ch.state = .stopped → ch.window = [])
    ∧ (ch.halt.isSome = true → ch.queue = [])

/-- Every window keeps its order, and there is room in it for the record that a live step read will bring (R4, R5). -/
abbrev Part.WindowLaw (p : Part) : Prop :=
  ∀ c : ChanId, p.chans[c].OrderLaw
    ∧ (p.port.carries (.stepRead c) → p.chans[c].stale = false → p.chans[c].window.length < 4)

/-- No slot index appears twice in the window (R4). -/
abbrev Channel.distinctSlots (ch : Channel) : Prop := (ch.window.map Step.index).Nodup

/-! ### The laws of the staging pool (R12, R105) -/

/-- The entries of one list that occupy the reserved slot of channel `c`. -/
def reservedIn (c : ChanId) (l : List Staged) : Nat := l.countP (Staged.isReservedOf c)

/-- How many entries hold the reserved slot of channel `c`. -/
def Pool.reservedUsed (p : Pool) (c : ChanId) : Nat :=
  reservedIn c p.lists[0] + reservedIn c p.lists[1] + reservedIn c p.lists[2] + reservedIn c p.lists[3]

/-- How many entries the pool holds. -/
def Pool.size (p : Pool) : Nat :=
  p.lists[0].length + p.lists[1].length + p.lists[2].length + p.lists[3].length

/-- A final report: STEP_DONE, FLUSH or FAULT (spec 7.1). -/
def EntryBody.isFinal : EntryBody → Bool
  | .stepDone _ | .flush .. | .fault _ => true
  | .capture .. | .wrap .. | .threshold .. => false

/-- A report a channel may hold pending: FLUSH or FAULT (R23). -/
def EntryBody.mayPend : EntryBody → Bool
  | .flush .. | .fault _ => true
  | .stepDone _ | .capture .. | .wrap .. | .threshold .. => false

/-- At most 24 entries are in shared slots; a reserved slot holds at most one entry, and a final report (R105);
a channel has an active step only while its reserved slot is empty (R12); and a pending report is the channel's
own FLUSH or FAULT (R23). -/
abbrev Part.StagingLaw (p : Part) : Prop :=
  p.pool.sharedUsed ≤ 24
    ∧ (∀ c : ChanId, p.pool.reservedUsed c ≤ 1)
    ∧ (∀ q : RingId, ∀ st ∈ p.pool.lists[q], st.slot = .reserved → st.entry.draft.body.isFinal = true)
    ∧ (∀ c : ChanId, p.chans[c].active.isSome = true → p.pool.reservedBusy c = false)
    ∧ (∀ c : ChanId, ∀ d ∈ p.chans[c].pendingReport, d.channel = c ∧ d.body.mayPend = true)

/-! ### The laws of the rings (R111, R112) -/

/-- A ring's indices lie below its size, and outstanding is the forward distance from host head to write index
(R112); an ABSENT ring has size 0 (R111). -/
abbrev Ring.Law (r : Ring) : Prop :=
  (r.state = .absent → r.size = 0)
    ∧ (r.state ≠ .absent →
        16 ≤ r.size ∧ r.size ≤ 4096 ∧ r.writeIndex < r.size ∧ r.hostHead < r.size
          ∧ r.outstanding = forward r.hostHead r.writeIndex r.size)

/-- A live write of the ring left room for the slot it writes, and its entry is still in the list (R112, R114). -/
abbrev Part.writeHasRoom (p : Part) (q : RingId) : Prop :=
  p.rings[q].state ≠ .absent ∧ p.rings[q].inFlight = true ∧ p.pool.lists[q] ≠ []
    ∧ p.rings[q].outstanding + 1 < p.rings[q].size

/-- Every completion ring keeps its law, and a live entry write has room (R112). -/
abbrev Part.RingLaw (p : Part) : Prop :=
  (∀ q : RingId, p.rings[q].Law)
    ∧ (∀ q : RingId, ∀ part : EntryPart, p.port.carries (.entryWrite q part) → p.writeHasRoom q)

/-- The ACQ's indices lie below its size, and ACQ outstanding is the forward distance from ACQ host head to ACQ
write index (R112, R138); before a configuration block is read the ACQ has size 0 (R133). A live ACQ write
belongs to the unit in POSTING and left room for its entry (R138). -/
abbrev Part.AcqLaw (p : Part) : Prop :=
  (p.admin.acqSize = 0 → p.admin.acqOutstanding = 0)
    ∧ (p.admin.acqSize ≠ 0 →
        p.admin.acqWrite < p.admin.acqSize ∧ p.admin.acqHead < p.admin.acqSize
          ∧ p.admin.acqOutstanding = forward p.admin.acqHead p.admin.acqWrite p.admin.acqSize)
    ∧ (p.port.carries .acqWrite →
        p.admin.unit = .posting ∧ p.admin.acqOutstanding + 1 < p.admin.acqSize)

/-! ### The law of the admin unit (R134, R138, R141, R158, R165) -/

/-- A deadline timer runs only for a command that waits on a channel (R141); a command waits only in RUNNING; and a live
admin read belongs to the unit in FETCHING in RUNNING (R134), a live ACQ write to the unit in POSTING (R138), and a
live configuration read to the device in STARTING (R165). -/
abbrev Part.AdminLaw (p : Part) : Prop :=
  (p.admin.deadline ≠ none → p.admin.unit = .waiting ∧ ∃ c, p.admin.waitingOn = .channel c)
    ∧ (p.admin.unit = .waiting → p.device.state = .running)
    ∧ (p.port.carries .adminRead → p.admin.unit = .fetching ∧ p.device.state = .running)
    ∧ (p.port.carries .acqWrite → p.admin.unit = .posting)
    ∧ (p.port.carries .configRead → p.device.state = .starting)

/-! ### The events that a tick brings, as commands (R70) -/

/-- The command that stands for an event which the tick brings by itself. -/
def TimedEvent.command : TimedEvent → Instr
  | .captureEdge c => .captureEdge c
  | .windowEdge c => .windowEdge c
  | .countStep c => .countStep c
  | .cycleEnd c => .cycleEnd c
  | .overrange c => .overrange c
  | .windowEnd c => .windowEnd c
  | .atTime c => .atTimeSatisfied c
  | .markTimeout c => .markTimeout c
  | .notice i => .noticeTimerExpiry i
  | .deadline => .deadlineExpiry
  | .responseLimit => .responseLimitExpiry

end Sys2Proof.Machine
end

