-- ==== Sys2Proof/Certificates/Slice0/Obligations.lean ====
section
/-! DEFINITION. The statements for the provers, in the order of OBLIGATIONS.json. -/

open Sys2Proof Sys2Proof.Machine

/-! ### The machine -/

/-- With a command at the front of the queue, a step is the command's meaning on the state with the queue's
rest. -/
def Obligations.StepRunsTheFrontCommand : Prop :=
  ∀ (s : State) (c : Instr) (rest : List Instr), s.pending = c :: rest →
    step s = exec c { s with pending := rest }

/-- Every well-formed command answers a next state, and leaves the queue as it stands. That both resets keep the
queue (log entry 16), that a term which is no command of its row is refused (log entry 28), and that on an empty
queue the part idles (log entry 14) are the model's choices. -/
def Obligations.EveryCommandRuns : Prop :=
  (∀ (c : Instr) (s : State), c.wellFormed = true → ∃ t, exec c s = .next t ∧ t.pending = s.pending)
    ∧ (∀ (opcode : BitVec 8) (r : CommandRecord) (s : State), knownOpcode opcode = true →
        exec (.badOpcode opcode r) s = .refused (.notThisCommand "BAD_OPCODE"))
    ∧ (∀ (register : Reg) (v : Word32) (s : State), ignoredWrite register v = false →
        exec (.ignoredRegisterWrite register v) s = .refused (.notThisCommand "IGNORED_REGISTER_WRITE"))
    ∧ (∀ s : State, s.pending = [] → step s = .next s)

/-! ### Words and bytes -/

/-- Decode and encode agree: the word of a well-formed command decodes to the command, with every operand. -/
def Obligations.HostWordsRoundTrip : Prop :=
  ∀ (i : Instr) (w : HostWord), i.wellFormed = true → encodeHostWord i = some w → decodeHostWord w = i

/-- Every host word makes a well-formed command, and the command's own word makes the same command; that word is
the one given, but for the bits of DEVCTL and POST that no field names. -/
def Obligations.HostWordsDecodeWellFormed : Prop :=
  ∀ w : HostWord, (decodeHostWord w).wellFormed = true
    ∧ ∃ w', encodeHostWord (decodeHostWord w) = some w' ∧ decodeHostWord w' = decodeHostWord w
        ∧ (∀ bytes, w = .adminRecord bytes → w' = w)
        ∧ (∀ register v, w = .write register v → register ≠ .devctl → register ≠ .post → w' = w)
        ∧ (∀ v, w = .write .post v → w' = .write .post (v &&& 0x0F00FFFF))

/-- Every field of a step record stands at its position, and no bit of the record is dropped (spec 12.1). Every
field of a written slot stands at its position, the phase bit at bit 7, and every position that the layout marks
zero is 0, in an entry slot, a STATS slot and a PAD slot (spec 12.2, R173). Each entry type has its code, the codes
of its fields and the fields it carries, and zero in the others (spec 12.2, R51, R102). An ACQ entry holds its
opcode, status code, phase bit, tag, admin head and result words at their positions (spec 12.3, R138). An entry is long
exactly where it is a STEP_DONE with statistics, and an entry write carries the entry's first slot, its STATS slot or a
PAD slot, as its part says (R101, R114, R116, R117). -/
def Obligations.RecordAndSlotBytesHoldTheFields : Prop :=
  ((∀ w : Slot, (StepRecord.ofBytes w).toBytes = w)
     ∧ (∀ r : StepRecord, StepRecord.ofBytes r.toBytes = r)
     ∧ (∀ w : Slot, let r := StepRecord.ofBytes w
         r.kind = w.extractLsb' 0 8 ∧ r.start = w.extractLsb' 8 3 ∧ r.strict = w.getLsbD 11
           ∧ r.markSource = w.extractLsb' 12 4 ∧ r.tag = w.extractLsb' 16 16
           ∧ r.prescale = w.extractLsb' 32 4 ∧ r.aFunction = w.extractLsb' 36 2
           ∧ r.polarity = w.extractLsb' 38 2 ∧ r.endPark = w.getLsbD 40
           ∧ r.markStart = w.getLsbD 41 ∧ r.markCycle = w.getLsbD 42 ∧ r.markEnd = w.getLsbD 43
           ∧ r.quiet = w.getLsbD 44 ∧ r.summary = w.getLsbD 45 ∧ r.zeroPos = w.getLsbD 46
           ∧ r.zeroBit = w.getLsbD 47 ∧ r.count = w.extractLsb' 48 16 ∧ r.strikes = w.extractLsb' 64 4
           ∧ r.zeroHigh = w.extractLsb' 68 4 ∧ r.zeroMid = w.extractLsb' 72 24
           ∧ r.top = w.extractLsb' 96 32 ∧ r.cmp = w.extractLsb' 128 32
           ∧ r.startTime = w.extractLsb' 160 48 ∧ r.zeroLow = w.extractLsb' 208 16
           ∧ r.startTimeout = w.extractLsb' 224 32)
     ∧ (∀ r : StepRecord, r.kindOf =
         [none, some .tone, some .strobe, some .pwm, some .pdm, some .chime, some .level, some .period,
           some .width, some .phase, some .count, some .position].getD r.kind.toNat none))
    ∧ ((∀ (i : SlotImage) (phase : Bool), let b := i.toBytes phase
         b.extractLsb' 0 4 = i.type ∧ b.extractLsb' 4 3 = 0 ∧ b.getLsbD 7 = phase
           ∧ b.extractLsb' 8 8 = i.channel ∧ b.extractLsb' 16 8 = i.seq ∧ b.extractLsb' 24 8 = i.missed
           ∧ b.extractLsb' 32 16 = i.tag ∧ b.extractLsb' 48 8 = i.status ∧ b.extractLsb' 56 8 = i.flags
           ∧ b.extractLsb' 64 48 = i.time ∧ b.extractLsb' 112 8 = i.direction ∧ b.extractLsb' 120 8 = i.which
           ∧ b.extractLsb' 128 32 = i.value ∧ b.extractLsb' 160 16 = i.sqHead
           ∧ b.extractLsb' 176 8 = i.flushed ∧ b.extractLsb' 184 8 = i.reason
           ∧ b.extractLsb' 192 16 = i.firstTag ∧ b.extractLsb' 208 48 = 0)
         ∧ (∀ (s : Stats) (phase : Bool), let b := s.toBytes phase
             b.extractLsb' 0 4 = 3 ∧ b.extractLsb' 4 3 = 0 ∧ b.getLsbD 7 = phase ∧ b.extractLsb' 8 24 = 0
               ∧ b.extractLsb' 32 32 = BitVec.ofNat 32 s.min ∧ b.extractLsb' 64 32 = BitVec.ofNat 32 s.max
               ∧ b.extractLsb' 96 32 = BitVec.ofNat 32 s.n ∧ b.extractLsb' 128 64 = BitVec.ofNat 64 s.sum
               ∧ b.extractLsb' 192 64 = 0)
         ∧ (∀ phase : Bool, let b := padBytes phase
             b.extractLsb' 0 4 = 8 ∧ b.extractLsb' 4 3 = 0 ∧ b.getLsbD 7 = phase ∧ b.extractLsb' 8 248 = 0))
    ∧ (∀ (e : Entry), let i := e.image; let d := e.draft
        let common := i.channel.toNat = d.channel.val ∧ i.seq = e.seq ∧ i.missed = BitVec.ofNat 8 e.missed
          ∧ i.time = d.time
        let nothingElse := i.sqHead = 0 ∧ i.flushed = 0 ∧ i.reason = 0 ∧ i.firstTag = 0
        common ∧ (match d.body with
          | .capture tag overrange unarmed value => i.type = 1 ∧ i.tag = tag ∧ nothingElse
              ∧ i.status = (if overrange then 1 else 0) ∧ i.flags = (if unarmed then 32 else 0)
              ∧ i.value = BitVec.ofNat 32 value ∧ i.direction = 0 ∧ i.which = 0
          | .stepDone b => i.type = 2 ∧ i.tag = b.tag
              ∧ i.status.toNat = (match b.status with
                  | .done => 0 | .superseded => 1 | .preempted => 2 | .halted => 3 | .noSignal => 4
                  | .badStep => 5 | .lateSkipped => 6 | .markTimeout => 7)
              ∧ i.flags.getLsbD 0 = b.flags.late ∧ i.flags.getLsbD 1 = b.flags.heldStart
              ∧ i.flags.getLsbD 2 = b.flags.underrun ∧ i.flags.getLsbD 3 = b.flags.forced
              ∧ i.flags.getLsbD 4 = b.stats.isSome ∧ i.flags.extractLsb' 5 3 = 0
              ∧ i.value = BitVec.ofNat 32 b.value ∧ i.sqHead = BitVec.ofNat 16 b.sqHead
              ∧ i.flushed = BitVec.ofNat 8 b.flushed ∧ i.reason = (if b.fetchError then 1 else 0)
              ∧ i.firstTag = b.firstTag ∧ i.direction = 0 ∧ i.which = 0
          | .wrap tag down => i.type = 4 ∧ i.tag = tag ∧ nothingElse ∧ i.status = 0 ∧ i.flags = 0
              ∧ i.direction = (if down then 1 else 0) ∧ i.which = 0 ∧ i.value = 0
          | .threshold tag whichB down value => i.type = 5 ∧ i.tag = tag ∧ nothingElse ∧ i.status = 0
              ∧ i.flags = 0 ∧ i.direction = (if down then 1 else 0) ∧ i.which = (if whichB then 1 else 0)
              ∧ i.value = BitVec.ofNat 32 value
          | .flush flushed firstTag sqHead fetchError => i.type = 6 ∧ i.tag = 0 ∧ i.status = 0 ∧ i.flags = 0
              ∧ i.direction = 0 ∧ i.which = 0 ∧ i.value = 0 ∧ i.sqHead = BitVec.ofNat 16 sqHead
              ∧ i.flushed = BitVec.ofNat 8 flushed ∧ i.reason = (if fetchError then 1 else 0)
              ∧ i.firstTag = firstTag
          | .fault sqHead => i.type = 7 ∧ i.tag = 0 ∧ i.status = 0 ∧ i.flags = 0 ∧ i.direction = 0
              ∧ i.which = 0 ∧ i.value = 0 ∧ i.sqHead = BitVec.ofNat 16 sqHead ∧ i.flushed = 0
              ∧ i.reason = 1 ∧ i.firstTag = 0))
    ∧ (∀ (e : AcqEntry) (phase : Bool), let b := e.toBytes phase
        b.extractLsb' 0 8 = e.opcode
          ∧ (b.extractLsb' 8 8).toNat = (match e.status with
              | .ok => 0 | .badOpcode => 1 | .badParam => 2 | .badState => 3 | .lineBusy => 4 | .deadline => 5)
          ∧ b.extractLsb' 16 15 = 0 ∧ b.getLsbD 31 = phase ∧ b.extractLsb' 32 16 = e.tag
          ∧ b.extractLsb' 48 16 = BitVec.ofNat 16 e.adminHead ∧ b.extractLsb' 64 32 = e.results.word0
          ∧ b.extractLsb' 96 32 = e.results.word1 ∧ b.extractLsb' 128 32 = e.results.word2
          ∧ b.extractLsb' 160 32 = e.results.word3 ∧ b.extractLsb' 192 64 = 0)
    ∧ (∀ (e : Entry) (phase : Bool),
        (e.isLong = true ↔ ∃ b a, e.draft.body = .stepDone b ∧ b.stats = some a)
          ∧ e.partBytes .single phase = e.image.toBytes phase
          ∧ e.partBytes .longFirst phase = e.image.toBytes phase
          ∧ (∀ b a, e.draft.body = .stepDone b → b.stats = some a → e.partBytes .stats phase = a.toBytes phase)
          ∧ e.partBytes .pad phase = padBytes phase)

/-! ### Waveforms and validation -/

/-- R38: B is high in a prescaled tick of a PDM step whose top is 2^w - 1 exactly where the w-bit reversal of the
counter is below cmp; each cycle holds exactly cmp high prescaled ticks. -/
def Obligations.PdmCycleHoldsCmpHighTicks : Prop :=
  ∀ (r : StepRecord) (w : Nat) (odd : Bool), r.kindOf = some .pdm → 1 ≤ w → w ≤ 32 →
    r.top.toNat + 1 = 2 ^ w → r.cmp.toNat ≤ 2 ^ w →
    (∀ n, n < 2 ^ w → ∃ reversal, reversal < 2 ^ w
        ∧ (∀ i, i < w → reversal.testBit i = n.testBit (w - 1 - i))
        ∧ (r.bLevel n odd = true ↔ reversal < r.cmp.toNat))
      ∧ (List.range (2 ^ w)).countP (fun n => r.bLevel n odd) = r.cmp.toNat

/-- R35 to R37, R40, R41: the level of B in each prescaled tick of the kinds other than PDM; and R31: the drive of
A follows the a_function. R71, R72, R84: a rise and a fall compare the samples of the current tick and of the tick
before, and nothing is compared in the first tick after hard reset; a line shows its owner's drive, else its park
level. R44, R56, R57, R59: the gated ticks of the interval kinds and the edges that take a capture from an armed
step or arm an unarmed one. -/
def Obligations.LevelsEdgesAndGatesFollowTheKind : Prop :=
  (∀ (r : StepRecord) (n cycles : Nat) (odd b : Bool),
     (r.kindOf = some .tone ∨ r.kindOf = some .chime → r.bLevel n odd = odd)
       ∧ (r.kindOf = some .strobe → (r.bLevel n odd = true ↔ n = r.cmp.toNat))
       ∧ (r.kindOf = some .pwm → (r.bLevel n odd = true ↔ n < r.cmp.toNat))
       ∧ (r.kindOf = some .level → (r.bLevel n odd = true ↔ r.polarity = 1))
       ∧ (r.aFunction = 0 → r.aDrive n cycles b = .none)
       ∧ (r.aFunction = 1 → r.aDrive n cycles b = .ofLevel b)
       ∧ (r.aFunction = 2 → r.aDrive n cycles b = .ofLevel (!b))
       ∧ (r.aFunction = 3 → r.aDrive n cycles b = .ofLevel (decide (n = 0 ∧ cycles = 0))))
    ∧ (∀ (k : Clock) (i : LineId),
    (k.rises (some i) = true ↔ ∃ v, k.previous = some v ∧ v[i] = false ∧ k.sample[i] = true)
      ∧ (k.falls (some i) = true ↔ ∃ v, k.previous = some v ∧ v[i] = true ∧ k.sample[i] = false))
    ∧ (∀ (l : LineEntry) (pin : Bool), l.shows pin =
        if l.owner.isSome = true ∧ l.drive ≠ .none then decide (l.drive = .high)
        else if l.park = .float then pin else decide (l.park = .high))
    ∧ (∀ (ch : Channel) (k : Clock) (r : StepRecord) (i : LineId), ch.bLine = some i →
        let rise := k.rises (some i); let fall := k.falls (some i)
        (r.kindOf = some .period → ch.gated k r = true
          ∧ ch.intervalEdge k r = if r.polarity = 1 then rise else fall)
        ∧ (r.kindOf = some .width → (ch.gated k r = true ↔ (k.sample[i] = true ↔ r.polarity = 1))
          ∧ ch.intervalEdge k r =
              if (r.polarity = 1 ↔ ch.intervalArmed = true) then fall else rise)
        ∧ (∀ j, r.kindOf = some .phase → ch.aLine = some j →
          (ch.gated k r = true ↔ k.sample[j] = true ∧ k.sample[i] = false)
            ∧ ch.intervalEdge k r = rise))

/-- R98: every record valid at 16 bits is valid at 32 bits. R30: a PWM step is accepted on a channel exactly when the
channel is of class OUTPUT with an a_line where the a_function needs one, and every field lies in the range that
R30 and R77 give it at the channel's width. R50: the same for a PERIOD step on a channel of class INPUT. R9, R10, R30,
R39, R50, R171: a record of no kind fails check 1; a record of any of the eleven kinds on an open channel is
accepted where it passes the checks 2 to 9, as R9 states them with the ranges and zero fields of its kind, and else
fails with the lowest code among the checks that it does not pass. -/
def Obligations.RecordsAreAcceptedExactly : Prop :=
  (∀ (ch : Channel) (r : StepRecord), validate ch false r = none → validate ch true r = none)
    ∧ (∀ (ch : Channel) (wide : Bool) (r : StepRecord), r.kindOf = some .pwm →
         (validate ch wide r = none ↔
           ch.cls = some .output ∧ (r.aFunction ≠ 0 → ch.aLine.isSome = true) ∧ r.aFunction ≠ 3
             ∧ 1 ≤ r.top.toNat ∧ r.top.toNat ≤ (if wide then 4294967294 else 65535)
             ∧ r.cmp.toNat ≤ r.top.toNat + 1 ∧ r.prescale.toNat ≤ 8
             ∧ r.start.toNat ≤ 3 ∧ (r.strict = true → r.start = 2) ∧ r.markSource.toNat ≤ 7
             ∧ (r.start ≠ 3 → r.markSource = 0 ∧ r.startTimeout = 0) ∧ (r.start ≠ 2 → r.startTime = 0)
             ∧ r.polarity = 0 ∧ r.strikes = 0 ∧ r.quiet = false ∧ r.summary = false ∧ r.zeroPos = false
             ∧ r.zeroBit = false ∧ r.zeroHigh = 0 ∧ r.zeroMid = 0 ∧ r.zeroLow = 0))
    ∧ (∀ (ch : Channel) (wide : Bool) (r : StepRecord), r.kindOf = some .period → ch.cls.isSome = true →
         (validate ch wide r = none ↔
           ch.cls = some .input ∧ r.aFunction = 0
             ∧ 1 ≤ r.top.toNat ∧ r.top.toNat ≤ (if wide then 4294967294 else 65535)
             ∧ (r.polarity = 1 ∨ r.polarity = 2) ∧ r.prescale.toNat ≤ 8
             ∧ r.start.toNat ≤ 3 ∧ (r.strict = true → r.start = 2) ∧ r.markSource.toNat ≤ 7
             ∧ (r.start ≠ 3 → r.markSource = 0 ∧ r.startTimeout = 0) ∧ (r.start ≠ 2 → r.startTime = 0)
             ∧ r.cmp = 0 ∧ r.zeroPos = false ∧ r.endPark = false
             ∧ r.zeroBit = false ∧ r.zeroHigh = 0 ∧ r.zeroMid = 0 ∧ r.zeroLow = 0))
    ∧ (∀ (ch : Channel) (wide : Bool) (r : StepRecord), r.kindOf = none → validate ch wide r = some 1)
    ∧ (∀ (ch : Channel) (wide : Bool) (r : StepRecord) (k : Kind), r.kindOf = some k → ch.cls.isSome = true →
         let output := k = .tone ∨ k = .strobe ∨ k = .pwm ∨ k = .pdm ∨ k = .chime ∨ k = .level
         let readsCmp := k = .strobe ∨ k = .pwm ∨ k = .pdm ∨ k = .position
         let readsPolarity := k = .level ∨ k = .period ∨ k = .width ∨ k = .count
         let greatest := if wide then 4294967295 else 65535
         let passes (code : Nat) : Prop :=
           match code with
           | 2 => ch.cls = some .output ↔ output
           | 3 => k = .phase ∨ k = .position ∨ output ∧ r.aFunction ≠ 0 → ch.aLine.isSome = true
           | 4 => (k ≠ .pdm → k ≠ .position →
                1 ≤ r.top.toNat ∧ r.top.toNat ≤ (if wide then 4294967294 else 65535))
               ∧ (k = .strobe → r.cmp.toNat ≤ r.top.toNat)
               ∧ (k = .pwm ∨ k = .pdm → r.cmp.toNat ≤ r.top.toNat + 1)
               ∧ (k = .position → r.top.toNat ≤ greatest ∧ r.cmp.toNat ≤ greatest)
               ∧ (readsPolarity → r.polarity = 1 ∨ r.polarity = 2)
           | 5 => r.prescale.toNat ≤ 8
           | 6 => k = .pdm → ∃ w, 1 ≤ w ∧ w ≤ (if wide then 32 else 16) ∧ r.top.toNat + 1 = 2 ^ w
           | 7 => r.start.toNat ≤ 3 ∧ (r.start = 3 → r.markSource.toNat ≤ 7) ∧ (r.strict = true → r.start = 2)
           | 8 => r.zeroBit = false ∧ r.zeroHigh = 0 ∧ r.zeroMid = 0 ∧ r.zeroLow = 0
               ∧ (r.start ≠ 3 → r.markSource = 0 ∧ r.startTimeout = 0) ∧ (r.start ≠ 2 → r.startTime = 0)
               ∧ (¬ readsCmp → r.cmp = 0) ∧ (¬ readsPolarity → r.polarity = 0)
               ∧ (output ∨ k = .position → r.strikes = 0 ∧ r.quiet = false ∧ r.summary = false)
               ∧ (k ≠ .position → r.zeroPos = false) ∧ (¬ output → r.endPark = false)
           | 9 => (k = .chime → r.aFunction = 3) ∧ (output → k ≠ .chime → r.aFunction ≠ 3)
               ∧ (¬ output → r.aFunction = 0)
           | _ => True
         (validate ch wide r = none ↔ ∀ code, passes code)
           ∧ ∀ code, validate ch wide r = some code ↔ ¬ passes code ∧ ∀ n, n < code → passes n)

/-! ### Resets and registers -/

/-- Device reset (R164): every block takes its reset values, a transaction outstanding on the port runs on with
discard set and the rotation pointers return to their reset values (R157, R163); TB, the TBHI latch, the sample
history and CFGBASE stand. The values of the channel fields that R1's table does not list (the step's counts, the
armed state and the model's own fields) are the model's choice (log entry 5), and so is that late answers still to
come are still to come (log entry 37). -/
def Obligations.DeviceResetSetsEveryBlock : Prop :=
  ∀ s : State, ∃ p, exec .reset s = .next (s.withPart p)
    ∧ (∀ c : ChanId, p.chans[c] = Channel.reset) ∧ (∀ i : LineId, p.lines[i] = LineEntry.reset)
    ∧ (∀ j : Fin 4, p.pairs[j] = false) ∧ (∀ q : RingId, p.pool.lists[q] = []) ∧ p.pool.rotation = 7
    ∧ (∀ q : RingId, p.rings[q] = Ring.reset) ∧ (∀ i : NoticeId, p.notices[i] = Notice.reset)
    ∧ p.admin = Admin.reset ∧ p.port.current = s.part.port.current
    ∧ (p.port.discard = true ↔ s.part.port.current.isSome = true)
    ∧ p.port.withdrawn = s.part.port.withdrawn
    ∧ p.port.writePointer = 3 ∧ p.port.fetchPointer = 7
    ∧ p.device.state = .disabled ∧ p.device.cause = .none ∧ p.device.postError = false
    ∧ p.device.latchedId = 0 ∧ p.device.cfgBase = s.part.device.cfgBase ∧ p.interrupt = false

/-- Hard reset (R164): the values of device reset, and TB, the TBHI latch and CFGBASE are 0 and the sample history
is empty (R68, R69, R71). That an outstanding transaction keeps its response limit, counted in the new TB (log entry
11), that late answers still to come are still to come (log entry 37), and the values of the channel fields that
R1's table does not list (log entry 5) are the model's choices. -/
def Obligations.HardResetSetsEveryBlock : Prop :=
  ∀ (s : State) (pins : BitVec 16), ∃ t, exec (.hardReset pins) s = .next t
    ∧ t.tb = 0 ∧ t.tbhi = 0 ∧ t.previous = none ∧ t.irq = false ∧ t.pins = pins
    ∧ (∀ i : LineId, t.sample[i] = pins.getLsbD i)
    ∧ (∀ c : ChanId, t.part.chans[c] = Channel.reset) ∧ (∀ i : LineId, t.part.lines[i] = LineEntry.reset)
    ∧ (∀ j : Fin 4, t.part.pairs[j] = false) ∧ (∀ q : RingId, t.part.pool.lists[q] = [])
    ∧ t.part.pool.rotation = 7
    ∧ (∀ q : RingId, t.part.rings[q] = Ring.reset) ∧ (∀ i : NoticeId, t.part.notices[i] = Notice.reset)
    ∧ t.part.admin = Admin.reset
    ∧ t.part.port.current.map Transaction.kind = s.part.port.current.map Transaction.kind
    ∧ t.part.port.discard = s.part.port.current.isSome ∧ t.part.port.withdrawn = s.part.port.withdrawn
    ∧ t.part.port.writePointer = 3 ∧ t.part.port.fetchPointer = 7
    ∧ t.part.device.state = .disabled ∧ t.part.device.cause = .none ∧ t.part.device.postError = false
    ∧ t.part.device.latchedId = 0 ∧ t.part.device.cfgBase = 0
    ∧ (∀ tx ∈ s.part.port.current, tx.limit ≠ s.tb →
        ∃ ux ∈ t.part.port.current, ux.limit = tx.limit - s.tb - 1)

/-- ENABLE and RESTART_ADMIN (R165, R168): ENABLE in DISABLED makes the device STARTING, and in any other state
changes nothing; RESTART_ADMIN in RUNNING or ADMIN_FAULT makes it STARTING, abandons the current command, clears
the ACQ's count and timer (R124) and sets discard on an outstanding admin transaction, and in DISABLED or STARTING
changes nothing. Where that transaction ends in the tick of the restart, by its response limit or by an answer, it has
already ended, nothing is discarded, and its answer, which is still to come, goes to no block; that the answers of the
tick are those that wait in the queue in front of the next TICK or HARD_RESET is the model's choice (log entry 40), and
so is the open choice where such an answer could be a late one (log entry 37). The arbiter grants where the port is
IDLE. -/
def Obligations.DeviceControlStartsTheDevice : Prop :=
  ∀ s : State, let p := s.part
    (p.device.state = .disabled → exec .enable s = .next (s.granted
      { p with device := { p.device with state := .starting, cause := .none, configGranted := false } }))
    ∧ (p.device.state ≠ .disabled → exec .enable s = .next s)
    ∧ (p.device.state = .running ∨ p.device.state = .adminFault →
        let restarted (port : Port) (choices : Nat) : Host.Outcome State Fault Refusal := .next (s.granted
          { p with
            admin := { p.admin with
              unit := .idle, current := none, completion := none, deadline := none, waitingOn := .nothing }
            notices := p.notices.set 4 { p.notices[4] with unnoticed := 0, timer := none }
            port := port
            device := { p.device with state := .starting, cause := .none, configGranted := false }
            choices := choices })
        let discarded : Port := { p.port with discard := true }
        ((∀ t ∈ p.port.current, t.kind ≠ .adminRead ∧ t.kind ≠ .acqWrite) ∨ p.port.discard = true →
          exec .restartAdmin s = restarted p.port p.choices)
        ∧ (∀ t : Transaction, p.port.current = some t → t.kind = .adminRead ∨ t.kind = .acqWrite →
            p.port.discard = false →
          let ended : Port := { p.port with current := none, withdrawn := p.port.withdrawn ++ [t.kind] }
          let answered := ∃ (before rest : List Instr) (i : Instr), s.pending = before ++ i :: rest
            ∧ (∀ x ∈ before, (∀ pins, x ≠ .tick pins) ∧ ∀ pins, x ≠ .hardReset pins)
            ∧ answeredKind i = some t.kind
          (t.limit = s.tb ∨ answered ∧ t.kind ∉ p.port.withdrawn →
            exec .restartAdmin s = restarted ended p.choices)
          ∧ (t.limit ≠ s.tb → ¬ answered → exec .restartAdmin s = restarted discarded p.choices)
          ∧ (t.limit ≠ s.tb → answered → t.kind ∈ p.port.withdrawn →
            exec .restartAdmin s = restarted ended (p.choices + 1)
              ∨ exec .restartAdmin s = restarted discarded (p.choices + 1))))
    ∧ (p.device.state = .disabled ∨ p.device.state = .starting → exec .restartAdmin s = .next s)

/-- The register commands (R69, R129, R169, R174): what each sets, and that nothing else changes; that the data of a
TBLO read is kept is the model's own (log entry 6). What a read of DEVID, CFGBASE, DEVCTL, POST and DEVSTAT returns:
in DEVSTAT the device state, the cause, POST_ERROR, the latched id and the ring fault summary, each at its position
(R165, R169, R170). -/
def Obligations.RegisterCommandsSetTheirFields : Prop :=
  ∀ (s : State) (v : Word32), let p := s.part
    exec .tbloRead s =
        .next { s with readData := s.tb.extractLsb' 0 32, tbhi := s.tb.extractLsb' 32 16 }
    ∧ exec (.devstatWrite v) s = .next (s.withPart (if v.getLsbD 8 = true
        then { p with device := { p.device with postError := false, latchedId := 0 } } else p))
    ∧ exec (.cfgbaseWrite v) s = .next (s.withPart
        { p with device := { p.device with cfgBase := v &&& 0xFFFFFFC0 } })
    ∧ (∃ n : Vector Notice 5, exec (.intstatWrite v) s = .next (s.withPart { p with notices := n })
        ∧ ∀ i : NoticeId, n[i] = if v.getLsbD i = true then { p.notices[i] with pending := false }
            else p.notices[i])
    ∧ (∀ register, ignoredWrite register v = true → exec (.ignoredRegisterWrite register v) s = .next s)
    ∧ s.readRegister .devid = 0x57081601 ∧ s.readRegister .cfgbase = p.device.cfgBase
    ∧ s.readRegister .devctl = 0 ∧ s.readRegister .post = 0
    ∧ (let d := s.readRegister .devstat;
        (d.extractLsb' 0 2).toNat =
            (match p.device.state with | .disabled => 0 | .starting => 1 | .running => 2 | .adminFault => 3)
          ∧ d.extractLsb' 2 2 = 0
          ∧ (d.extractLsb' 4 4).toNat = (match p.device.cause with
              | .none => 0 | .configRead => 1 | .configVersion => 2 | .configAdminRing => 3 | .configAcq => 4
              | .adminRead => 5 | .acqWrite => 6)
          ∧ d.getLsbD 8 = p.device.postError ∧ d.extractLsb' 9 3 = 0 ∧ d.extractLsb' 12 4 = p.device.latchedId
          ∧ (d.getLsbD 16 = true ↔ ∃ q : RingId, p.rings[q].state = .faulted) ∧ d.extractLsb' 17 15 = 0)

/-- R69: a read of TBLO returns the low 32 bits of TB and copies the upper 16 to the latch; a read of TBHI returns the
latch in its low 16 bits, and 0 in the upper. The latch changes at a TBLO read and at hard reset, which sets it to 0,
and at no other command, RESET among them; writes to TBLO and TBHI are ignored. -/
def Obligations.TbloReadsLatchTheTimeBase : Prop :=
  (∀ s : State, s.readRegister .tblo = s.tb.extractLsb' 0 32
     ∧ (s.readRegister .tbhi).extractLsb' 0 16 = s.tbhi ∧ (s.readRegister .tbhi).extractLsb' 16 16 = 0
     ∧ ∃ t, exec .tbloRead s = .next t ∧ t.tbhi = s.tb.extractLsb' 32 16 ∧ t.tb = s.tb)
    ∧ (∀ (s : State) (pins : BitVec 16), ∃ t, exec (.hardReset pins) s = .next t ∧ t.tbhi = 0)
    ∧ (∀ (s t : State) (i : Instr), exec i s = .next t → i ≠ .tbloRead → (∀ pins, i ≠ .hardReset pins) →
        t.tbhi = s.tbhi)
    ∧ (∀ (s : State) (v : Word32), exec (decodeHostWord (.write .tblo v)) s = .next s
        ∧ exec (decodeHostWord (.write .tbhi v)) s = .next s)

/-- R130: TOP names, among the contexts both pending and enabled, the one of highest level, the lowest id among
equals; with none TOP is 7; and a read of INTSTAT shows it in bits 16 to 18, each pending flag, its context enabled
or not, in bits 0 to 4, each ring fault in bits 8 to 11, and 0 in every other bit. -/
def Obligations.TopNamesTheHighestLevel : Prop :=
  ∀ s : State, let p := s.part
    (∀ i : NoticeId, p.top = BitVec.ofNat 3 i ↔
        p.notices[i].pending = true ∧ p.notices[i].enable = true
          ∧ ∀ j : NoticeId, p.notices[j].pending = true → p.notices[j].enable = true →
              p.notices[j].level < p.notices[i].level
                ∨ p.notices[j].level = p.notices[i].level ∧ i ≤ j)
    ∧ (p.top = 7 ↔ ∀ i : NoticeId, ¬ (p.notices[i].pending = true ∧ p.notices[i].enable = true))
    ∧ (s.readRegister .intstat).extractLsb' 16 3 = p.top
    ∧ (∀ i : NoticeId, (s.readRegister .intstat).getLsbD i = p.notices[i].pending)
    ∧ (∀ q : RingId, (s.readRegister .intstat).getLsbD (8 + q.val) = decide (p.rings[q].state = .faulted))
    ∧ (s.readRegister .intstat).extractLsb' 5 3 = 0 ∧ (s.readRegister .intstat).extractLsb' 12 4 = 0
    ∧ (s.readRegister .intstat).extractLsb' 19 13 = 0

/-- R131: the interrupt condition, and the line: in each tick it shows the condition that the tick before left,
every event of that tick taken; hard reset deasserts it, device reset leaves no condition to assert it, and no
command but TICK and hard reset changes it. That TICK takes the events which no command has taken is the model's
choice (log entry 13), and the event at which the field changes its reading (log entry 23). -/
def Obligations.InterruptLineShowsTheCondition : Prop :=
  (∀ p : Part, p.interrupt = true ↔
      (∃ i : NoticeId, p.notices[i].pending = true ∧ p.notices[i].enable = true)
        ∨ (∃ q : RingId, p.rings[q].state = .faulted) ∨ p.device.state = .adminFault)
    ∧ (∀ (s t : State) (pins : BitVec 16), exec (.tick pins) s = .next t →
        t.irq = (Part.takeDue s.clock dueLimit s.part).interrupt ∧ t.irq = t.part.interrupt)
    ∧ (∀ (s t : State) (pins : BitVec 16), exec (.hardReset pins) s = .next t →
        t.irq = false ∧ t.part.interrupt = false)
    ∧ (∀ s t : State, exec .reset s = .next t → t.part.interrupt = false)
    ∧ (∀ (s t : State) (c : Instr), exec c s = .next t → (∀ pins, c ≠ .tick pins) →
        (∀ pins, c ≠ .hardReset pins) → t.irq = s.irq)

/-! ### POST -/

/-- R7, R113, R136, R139, R170: a valid POST is applied, with the arbiter's grant where the port is IDLE. -/
def Obligations.ValidPostIsApplied : Prop :=
  ∀ (s : State) (index : BitVec 16), let p := s.part; let h := index.toNat
    (∀ c : ChanId, p.chans[c].state ≠ .closed → p.chans[c].state ≠ .subordinate →
        h < p.chans[c].ringSize →
      exec (.postStepTail c index) s =
        .next (s.granted { p with chans := p.chans.set c { p.chans[c] with tail := h } }))
    ∧ (∀ q : RingId, let r := p.rings[q]; let d := (h + r.size - r.hostHead) % r.size
        r.state ≠ .absent → h < r.size → d ≤ r.outstanding →
      exec (.postCqHead q index) s = .next (s.granted
        { p with rings := p.rings.set q { r with hostHead := h, outstanding := r.outstanding - d } }))
    ∧ ((p.device.state = .running ∨ p.device.state = .adminFault) → h < p.admin.ringSize →
      exec (.postAdminTail index) s = .next (s.granted { p with admin := { p.admin with tail := h } }))
    ∧ (let a := p.admin; let d := (h + a.acqSize - a.acqHead) % a.acqSize
        (p.device.state = .running ∨ p.device.state = .adminFault) → h < a.acqSize →
        d ≤ a.acqOutstanding →
      exec (.postAcqHead index) s = .next (s.granted
        { p with admin := { a with acqHead := h, acqOutstanding := a.acqOutstanding - d } }))

/-- R170: an invalid POST is not applied; it sets POST_ERROR and latches its ring id where POST_ERROR was clear,
and changes nothing where it was set. Ring ids 14 and 15 are never valid. -/
def Obligations.InvalidPostIsRecorded : Prop :=
  ∀ (s : State) (index : BitVec 16), let p := s.part; let h := index.toNat
    let recorded (id : Nat) : State :=
      if p.device.postError = true then s
      else s.withPart { p with device := { p.device with postError := true, latchedId := BitVec.ofNat 4 id } }
    let offDuty := p.device.state ≠ .running ∧ p.device.state ≠ .adminFault
    (∀ c : ChanId, (p.chans[c].state = .closed ∨ p.chans[c].state = .subordinate
        ∨ p.chans[c].ringSize ≤ h) → exec (.postStepTail c index) s = .next (recorded c))
    ∧ (∀ q : RingId, (p.rings[q].state = .absent ∨ p.rings[q].size ≤ h
        ∨ p.rings[q].outstanding < (h + p.rings[q].size - p.rings[q].hostHead) % p.rings[q].size) →
        exec (.postCqHead q index) s = .next (recorded (8 + q)))
    ∧ ((offDuty ∨ p.admin.ringSize ≤ h) → exec (.postAdminTail index) s = .next (recorded 12))
    ∧ ((offDuty ∨ p.admin.acqSize ≤ h
        ∨ p.admin.acqOutstanding < (h + p.admin.acqSize - p.admin.acqHead) % p.admin.acqSize) →
        exec (.postAcqHead index) s = .next (recorded 13))
    ∧ exec (.postRingId1415 false index) s = .next (recorded 14)
    ∧ exec (.postRingId1415 true index) s = .next (recorded 15)

/-! ### Administrative commands -/

/-- R138: a command that completes has its ACQ entry composed: the opcode and tag as read, the status, the index
just past the command's own, and the four result words; the unit is POSTING, and its deadline timer stops. -/
def Obligations.CompletionComposesTheEntry : Prop :=
  ∀ (p : Part) (c : Command) (status : AdminStatus) (words : Results), p.admin.current = some c →
    c.index < p.admin.ringSize →
    p.complete status words = { p with admin := { p.admin with
      unit := .posting
      completion := some
        { opcode := c.opcode, status := status, tag := c.record.tag
          adminHead := (c.index + 1) % p.admin.ringSize, results := words }
      deadline := none
      waitingOn := .nothing } }

/-- R135, R137, R142, R172: NOP completes with OK and words of 0; an unknown opcode with BAD_OPCODE; and a command
of any of the fourteen opcodes with a non-zero byte or bit that its row does not name with BAD_PARAM and no other
effect; the bytes and bits that each row names are those of the parameter table of spec 12.3. R143 to R153, R155, R99: so
does a command whose ring, context, channel or pair parameter lies out of range. -/
def Obligations.NopAndRefusalsComplete : Prop :=
  let named (opcode byte bit : Nat) : Prop :=
    match opcode with
    | 2 => byte = 4 ∨ byte = 5 ∧ bit = 0 ∨ 6 ≤ byte ∧ byte ≤ 15
    | 3 | 10 | 11 | 12 => byte = 4
    | 4 => byte = 4 ∨ byte = 5 ∧ bit = 0 ∨ 8 ≤ byte ∧ byte ≤ 11
    | 5 => byte = 4 ∨ byte = 5 ∧ bit = 0 ∨ byte = 6 ∨ byte = 7 ∨ byte = 14 ∨ byte = 15
    | 6 => 4 ≤ byte ∧ byte ≤ 7 ∨ byte = 8 ∧ bit = 0 ∨ 9 ≤ byte ∧ byte ≤ 17
    | 7 | 8 => byte = 4 ∨ byte = 5 ∨ 8 ≤ byte ∧ byte ≤ 11
    | 9 => byte = 4 ∨ byte = 16 ∨ byte = 17
    | 13 => byte = 4 ∨ 8 ≤ byte ∧ byte ≤ 11
    | 14 => byte = 4 ∨ byte = 5
    | _ => False
  let strays (r : CommandRecord) (opcode : Nat) : Prop :=
    ∃ byte bit, 4 ≤ byte ∧ byte ≤ 31 ∧ bit < 8 ∧ r.body.getLsbD (8 * (byte - 4) + bit) = true
      ∧ ¬ named opcode byte bit
  (∀ (r : CommandRecord) (opcode : Nat), r.zerosHold opcode = true ↔ r.zero1 = 0 ∧ ¬ strays r opcode)
    ∧ (∀ (s : State) (r : CommandRecord), s.part.port.answers .adminRead →
     (r.zerosHold 1 = true → exec (.nop r) s =
       .next (s.granted ((s.taken 1 r).complete .ok ⟨0, 0, 0, 0⟩)))
     ∧ (∀ opcode : BitVec 8, knownOpcode opcode = false → exec (.badOpcode opcode r) s =
         .next (s.granted ((s.taken opcode r).complete .badOpcode ⟨0, 0, 0, 0⟩)))
     ∧ (∀ (n : Nat) (command : CommandRecord → Instr),
         (n, command) ∈ ([(1, .nop), (2, .cqCreate), (3, .cqDelete), (4, .cqReset), (5, .cqNotice),
           (6, .chOpen), (7, .chHalt), (8, .chClose), (9, .chResume), (10, .chRead), (11, .pairJoin),
           (12, .pairSplit), (13, .posSet), (14, .linePark)] : List (Nat × (CommandRecord → Instr))) →
         (r.zero1 ≠ 0 ∨ strays r n) → exec (command r) s =
           .next (s.granted ((s.taken (BitVec.ofNat 8 n) r).complete .badParam ⟨0, 0, 0, 0⟩))))
    ∧ (∀ (s : State) (r : CommandRecord), s.part.port.answers .adminRead →
         (∀ (n : Nat) (command : CommandRecord → Instr) (limit : Nat),
           (n, command, limit) ∈ ([(2, .cqCreate, 4), (3, .cqDelete, 4), (4, .cqReset, 4), (5, .cqNotice, 5),
             (6, .chOpen, 8), (7, .chHalt, 8), (8, .chClose, 8), (9, .chResume, 8), (10, .chRead, 8),
             (11, .pairJoin, 8), (12, .pairSplit, 8), (13, .posSet, 8)]
               : List (Nat × (CommandRecord → Instr) × Nat)) →
           r.zerosHold n = true → limit ≤ r.byte 4 → exec (command r) s =
             .next (s.granted ((s.taken (BitVec.ofNat 8 n) r).complete .badParam ⟨0, 0, 0, 0⟩)))
         ∧ (∀ (n : Nat) (command : CommandRecord → Instr),
           (n, command) ∈ ([(11, .pairJoin), (12, .pairSplit)] : List (Nat × (CommandRecord → Instr))) →
           r.zerosHold n = true → r.byte 4 % 2 = 1 → exec (command r) s =
             .next (s.granted ((s.taken (BitVec.ofNat 8 n) r).complete .badParam ⟨0, 0, 0, 0⟩))))

/-- R120, R132, R143: CQ_CREATE's checks in their order, and the ring and notice context that it creates. R121, R132,
R144: CQ_DELETE's checks, and the reset values of the ring and of its notice context; result word 0 is the ring's
outstanding count. That pending is clear then, also where the timer expired in the same tick, as R132 says and R128 does
not, is the model's choice (log entry 41). -/
def Obligations.CqCreateAndDeleteCheckAndAct : Prop :=
  (∀ (s : State) (r : CommandRecord) (q : RingId), s.part.port.answers .adminRead →
     r.zerosHold 2 = true → r.byte 4 = q.val →
     let p := s.taken 2 r
     let status := firstFailing
       [ (legalSize 16 4096 (r.half 12), .badParam)
       , (decide ((r.word 8).toNat % 32 = 0 ∧ (r.word 8).toNat + r.half 12 * 32 ≤ 2 ^ 32), .badParam)
       , (decide (1 ≤ r.byte 7 ∧ r.byte 7 ≤ 64 ∧ r.byte 6 ≤ 3), .badParam)
       , (decide (p.rings[q].state = .absent), .badState) ]
     (status ≠ .ok → exec (.cqCreate r) s = .next (s.granted (p.complete status ⟨0, 0, 0, 0⟩)))
     ∧ (status = .ok → exec (.cqCreate r) s = .next (s.granted (Part.complete
         { p with
           rings := p.rings.set q
             { state := .ready, base := r.word 8, size := r.half 12, writeIndex := 0, phase := true
               hostHead := 0, outstanding := 0, inFlight := false, halfWritten := false }
           notices := p.notices.set q
             { enable := r.bit 5, threshold := r.byte 7, holdOff := r.half 14, level := r.byte 6
               unnoticed := 0, timer := none, pending := false } } .ok ⟨0, 0, 0, 0⟩))))
    ∧ (∀ (s : State) (r : CommandRecord) (q : RingId), s.part.port.answers .adminRead →
         r.zerosHold 3 = true → r.byte 4 = q.val →
         let p := s.taken 3 r
         let free := p.rings[q].state = .ready ∧ (∀ c : ChanId, p.chans[c].bound ≠ some q)
           ∧ p.pool.lists[q] = []
         (¬ free → exec (.cqDelete r) s = .next (s.granted (p.complete .badState ⟨0, 0, 0, 0⟩)))
         ∧ (free → exec (.cqDelete r) s = .next (s.granted (Part.complete
             { p with rings := p.rings.set q Ring.reset, notices := p.notices.set q Notice.reset } .ok
             ⟨BitVec.ofNat 32 p.rings[q].outstanding, 0, 0, 0⟩))))

/-- R122, R145: CQ_RESET's checks; with no write of the ring in flight the ring restarts at slot 0 at once, its list
kept and counted in result word 0; with one in flight the unit waits for the ring. R132, R146: CQ_NOTICE's checks,
and the notice context that it sets; the ACQ is context 4. -/
def Obligations.CqResetAndNoticeCheckAndAct : Prop :=
  (∀ (s : State) (r : CommandRecord) (q : RingId), s.part.port.answers .adminRead →
     r.zerosHold 4 = true → r.byte 4 = q.val →
     let p := s.taken 4 r
     let g := p.rings[q]
     let status := firstFailing
       [ (if r.bit 5 then decide ((r.word 8).toNat % 32 = 0 ∧ (r.word 8).toNat + g.size * 32 ≤ 2 ^ 32)
           else decide (r.word 8 = 0), .badParam)
       , (decide (g.state ≠ .absent), .badState) ]
     (status ≠ .ok → exec (.cqReset r) s = .next (s.granted (p.complete status ⟨0, 0, 0, 0⟩)))
     ∧ (status = .ok → g.inFlight = false → exec (.cqReset r) s = .next (s.granted (Part.complete
         { p with
           rings := p.rings.set q
             { state := .ready, base := if r.bit 5 then r.word 8 else g.base, size := g.size
               writeIndex := 0, phase := true, hostHead := 0, outstanding := 0, inFlight := false
               halfWritten := false } } .ok ⟨BitVec.ofNat 32 p.pool.lists[q].length, 0, 0, 0⟩)))
     ∧ (status = .ok → g.inFlight = true → exec (.cqReset r) s = .next (s.granted
         { p with admin := { p.admin with unit := .waiting, waitingOn := .ring q } })))
    ∧ (∀ (s : State) (r : CommandRecord) (i : NoticeId), s.part.port.answers .adminRead →
         r.zerosHold 5 = true → r.byte 4 = i.val →
         let p := s.taken 5 r
         let status := firstFailing
           [ (decide (1 ≤ r.byte 7 ∧ r.byte 7 ≤ 64 ∧ r.byte 6 ≤ 3), .badParam)
           , (decide (∀ q : RingId, q.val = i.val → p.rings[q].state ≠ .absent), .badState) ]
         (status ≠ .ok → exec (.cqNotice r) s = .next (s.granted (p.complete status ⟨0, 0, 0, 0⟩)))
         ∧ (status = .ok → exec (.cqNotice r) s = .next (s.granted (Part.complete
             { p with
               notices := p.notices.set i
                 { enable := r.bit 5, threshold := r.byte 7, holdOff := r.half 14, level := r.byte 6
                   unnoticed := 0, timer := none, pending := p.notices[i].pending } } .ok ⟨0, 0, 0, 0⟩))))

/-- R2, R85, R86, R147: CH_OPEN's checks in their order; a command that passes grants the claims and sets the
channel's context from the command, the fetcher's two flags kept; the values it gives the channel fields that R1's
table does not list (the step's counts, the armed state and the model's own fields) are the model's choice (log entry
5). -/
def Obligations.ChOpenChecksAndOpens : Prop :=
  ∀ (s : State) (r : CommandRecord) (c : ChanId), s.part.port.answers .adminRead →
    r.zerosHold 6 = true → r.byte 4 = c.val →
    let p := s.taken 6 r
    let lines : List LineId := [Fin.ofNat 16 (r.byte 6)] ++ if r.bit 8 then [Fin.ofNat 16 (r.byte 7)] else []
    let status := firstFailing
      [ (decide (r.byte 5 = 1 ∨ r.byte 5 = 2), .badParam)
      , (decide (r.byte 9 < 4), .badParam)
      , (legalSize 4 1024 (r.half 10), .badParam)
      , (decide ((r.word 12).toNat % 32 = 0 ∧ (r.word 12).toNat + r.half 10 * 32 ≤ 2 ^ 32), .badParam)
      , (decide (r.half 16 < r.half 10), .badParam)
      , (decide (r.byte 6 < 16), .badParam)
      , (if r.bit 8 then decide (r.byte 7 < 16 ∧ r.byte 7 ≠ r.byte 6) else decide (r.byte 7 = 0), .badParam)
      , (decide (p.chans[c].state = .closed), .badState)
      , (p.chans[c].pendingReport.isNone, .badState)
      , (decide (p.rings[(Fin.ofNat 4 (r.byte 9) : RingId)].state = .ready), .badState)
      , (decide (r.byte 5 = 1 → ∀ i ∈ lines, p.lines[i].owner = none), .lineBusy) ]
    (status ≠ .ok → exec (.chOpen r) s = .next (s.granted (p.complete status ⟨0, 0, 0, 0⟩)))
    ∧ (status = .ok → ∃ v : Vector LineEntry 16,
        (∀ i : LineId, v[i] =
          if i ∈ lines then
            (if r.byte 5 = 1 then { p.lines[i] with owner := some c, drive := .none }
              else { p.lines[i] with listeners := p.lines[i].listeners.set c true })
          else p.lines[i])
        ∧ exec (.chOpen r) s = .next (s.granted (Part.complete
            { p with
              lines := v
              chans := p.chans.set c
                { Channel.reset with
                  state := .idle
                  cls := some (if r.byte 5 = 1 then .output else .input)
                  bLine := some (Fin.ofNat 16 (r.byte 6))
                  aLine := if r.bit 8 then some (Fin.ofNat 16 (r.byte 7)) else none
                  bound := some (Fin.ofNat 4 (r.byte 9))
                  ringBase := r.word 12, ringSize := r.half 10
                  fetchIndex := r.half 16, tail := r.half 16
                  fetchInFlight := p.chans[c].fetchInFlight, stale := p.chans[c].stale } } .ok
            ⟨0, 0, 0, 0⟩)))

/-- R148, R151, R22: CH_HALT and CH_CLOSE of a CLOSED or SUBORDINATE channel, or with an unknown mode, are refused
with no effect; of a STOPPED channel, CH_HALT completes with report NONE and the fetch index, and CH_CLOSE does
so and closes the channel, releasing its lines (R89) and keeping its bound ring only for a pending report. That a
CLOSED channel keeps every field R22 does not name is read by inference (log entry 31). -/
def Obligations.HaltAndCloseOfAStoppedChannel : Prop :=
  ∀ (s : State) (r : CommandRecord) (c : ChanId), s.part.port.answers .adminRead →
    r.zerosHold 7 = true → r.byte 4 = c.val →
    let p := s.taken 7 r; let u := s.taken 8 r; let ch := s.part.chans[c]
    let words : Results := ⟨0, 0, BitVec.ofNat 32 ch.fetchIndex, 0⟩
    (r.byte 5 ≠ 1 ∧ r.byte 5 ≠ 2 →
      exec (.chHalt r) s = .next (s.granted (p.complete .badParam ⟨0, 0, 0, 0⟩))
        ∧ exec (.chClose r) s = .next (s.granted (u.complete .badParam ⟨0, 0, 0, 0⟩)))
    ∧ (r.byte 5 = 1 ∨ r.byte 5 = 2 → ch.state = .closed ∨ ch.state = .subordinate →
      exec (.chHalt r) s = .next (s.granted (p.complete .badState ⟨0, 0, 0, 0⟩))
        ∧ exec (.chClose r) s = .next (s.granted (u.complete .badState ⟨0, 0, 0, 0⟩)))
    ∧ (r.byte 5 = 1 ∨ r.byte 5 = 2 → ch.state = .stopped →
        (∀ i, ch.bLine = some i → ch.aLine ≠ some i) →
      exec (.chHalt r) s = .next (s.granted (p.complete .ok words))
        ∧ ∃ v : Vector LineEntry 16,
          (∀ i : LineId, v[i] =
            if ch.bLine = some i ∨ ch.aLine = some i then
              (if u.lines[i].owner = some c then { u.lines[i] with owner := none, drive := .none }
                else { u.lines[i] with listeners := u.lines[i].listeners.set c false })
            else u.lines[i])
          ∧ exec (.chClose r) s = .next (s.granted (Part.complete
              { u with
                lines := v
                chans := u.chans.set c { ch with
                  state := .closed, cls := none, bLine := none, aLine := none, queue := []
                  armed := .none, evaluation := .none, halt := none
                  bound := if ch.pendingReport.isSome then ch.bound else none
                  stale := ch.stale || ch.fetchInFlight } } .ok words)))

/-- R20, R22, R103, R148, R149, R151: CH_HALT and CH_CLOSE of a channel IDLE, WAITING or HELD flush the window and stop
the channel, or close it with its lines released. The FLUSH is admitted and the command completes with report FLUSH;
or, where no slot can take it, it is the pending report, for which a closed channel keeps its bound ring, and the
command waits on the channel, with its deadline timer. That a CLOSED channel keeps every field R22 does not name is
read by inference (log entry 31). -/
def Obligations.HaltWithNothingActiveFlushes : Prop :=
  ∀ (s : State) (r : CommandRecord) (c : ChanId) (q : RingId) (close : Bool), s.part.port.answers .adminRead →
    r.zerosHold 7 = true → r.byte 4 = c.val → r.byte 5 = 1 ∨ r.byte 5 = 2 →
    let p := s.taken (if close then 8 else 7) r; let ch := p.chans[c]
    let n := ch.queue.length
    let tag := match ch.queue with | [] => 0 | e :: _ => e.record.tag
    let body := EntryBody.flush n tag ch.fetchIndex ch.fetchFault
    let halted := { ch with
      state := .stopped, queue := [], armed := .none, evaluation := .none, halt := none
      stale := ch.stale || ch.fetchInFlight }
    let left (x : Channel) : Channel :=
      if close then
        { x with
          state := .closed, cls := none, bLine := none, aLine := none
          bound := if x.pendingReport.isSome then x.bound else none }
      else x
    let lines := if close then
        updateLine (updateLine p.lines ch.bLine (LineEntry.release c)) ch.aLine (LineEntry.release c)
      else p.lines
    ch.state = .idle ∨ ch.state = .waiting ∨ ch.state = .held → ch.active = none → ch.bound = some q →
    (p.pool.hasShared = true ∨ p.pool.reservedBusy c = false →
      exec (if close then .chClose r else .chHalt r) s = .next (s.granted (Part.complete
        { p with
          chans := p.chans.set c (left halted.afterAdmission)
          lines := lines
          pool := p.poolWith c q p.pool.slotForReport s.tb body } .ok
        ⟨2, BitVec.ofNat 32 n, BitVec.ofNat 32 ch.fetchIndex, 0⟩)))
    ∧ (p.pool.hasShared = false → p.pool.reservedBusy c = true →
      exec (if close then .chClose r else .chHalt r) s = .next (s.granted
        { p with
          chans := p.chans.set c (left { halted with
            pendingReport := some { channel := c, time := s.tb, body := body } })
          lines := lines
          admin := { p.admin with
            unit := .waiting, waitingOn := .channel c
            deadline := if r.word 8 = 0 then none else some (s.tb + (r.word 8).setWidth 48) } }))

/-- R20, R141, R148, R150: CH_HALT and CH_CLOSE in BOUNDARY mode of an ACTIVE channel whose step is no POSITION step
flush the steps behind it, record the request, and wait on the channel with the deadline timer; the step runs on. A
channel that already holds a BOUNDARY request keeps one: its purpose is CLOSE where either is, the flushed count and
tag stay the first's, and the deadline is the new command's. -/
def Obligations.BoundaryHaltWaitsForTheStep : Prop :=
  ∀ (s : State) (r : CommandRecord) (c : ChanId) (e : Machine.Step) (close : Bool),
    s.part.port.answers .adminRead → r.zerosHold 7 = true → r.byte 4 = c.val → r.byte 5 = 2 →
    let p := s.taken (if close then 8 else 7) r; let ch := p.chans[c]
    ch.state = .active → ch.active = some e → e.record.isKind .position = false →
    (∀ h ∈ ch.halt, h.boundary = true) →
    exec (if close then .chClose r else .chHalt r) s = .next (s.granted
      { p with
        chans := p.chans.set c { ch with
          queue := [], armed := .none, evaluation := .none
          stale := ch.stale || ch.fetchInFlight
          halt := some (match ch.halt with
            | none =>
              { close := close, boundary := true, deadline := decide (r.word 8 ≠ 0)
                flushed := ch.queue.length
                firstTag := match ch.queue with | [] => 0 | e :: _ => e.record.tag }
            | some h =>
              { close := h.close || close, boundary := true, deadline := decide (r.word 8 ≠ 0)
                flushed := h.flushed, firstTag := h.firstTag }) }
        admin := { p.admin with
          unit := .waiting, waitingOn := .channel c
          deadline := if r.word 8 = 0 then none else some (s.tb + (r.word 8).setWidth 48) } })

/-- R15, R16, R20, R21, R22, R67, R148, R150, R151: CH_HALT and CH_CLOSE of an ACTIVE channel in IMMEDIATE mode, or in
BOUNDARY mode where the step is a POSITION step, end the step HALTED at the event, its STEP_DONE staged with the
flushed steps counted, and the command completes with report HALTED; the channel is STOPPED, or CLOSED with its lines
released, and its lines show the step's end behaviour. Where the channel already holds a request, the step ends with
the count and tag of the first, and the channel closes where either request is CLOSE. That a CLOSED channel keeps
every field R22 does not name (log entry 31), and that a HOLD step which started in this tick leaves the drives its start
set (log entry 20), are read by inference, and so is that a POSITION step ended in the tick it started has its position
register as value, as R67 says, where R79 speaks of the value 0 (log entry 35); that the tick of the end does not count
in the counter is the model's choice (log entry 42). -/
def Obligations.ImmediateHaltEndsTheStep : Prop :=
  ∀ (s : State) (r : CommandRecord) (c : ChanId) (e : Machine.Step) (q : RingId) (close : Bool),
    s.part.port.answers .adminRead → r.zerosHold 7 = true → r.byte 4 = c.val →
    r.byte 5 = 1 ∨ r.byte 5 = 2 ∧ e.record.isKind .position = true →
    let p := s.taken (if close then 8 else 7) r; let ch := p.chans[c]
    let shut := close || ch.halt.any fun h => h.close
    let n := match ch.halt with | none => ch.queue.length | some h => h.flushed
    let tag := match ch.halt, ch.queue with
      | some h, _ => h.firstTag | none, [] => 0 | none, e :: _ => e.record.tag
    ch.state = .active → ch.active = some e → ch.bound = some q →
    exec (if close then .chClose r else .chHalt r) s = .next (s.withPart (Part.closeStep (Part.complete
      { p with
        chans := p.chans.set c
          { (haltedChannel ch shut).afterAdmission with stale := ch.stale || ch.fetchInFlight }
        lines := linesAfterHalt p.lines c ch e.record shut
        pool := p.poolWith c q p.pool.slotForReport s.tb (haltedBody ch e n tag false)
        marks := if e.record.markEnd then p.marks.set c true else p.marks } .ok
      ⟨1, BitVec.ofNat 32 n, BitVec.ofNat 32 ch.fetchIndex, 0⟩) s.clock s.part.marks))

/-- R26, R152: CH_RESUME's checks in their order, and its effect: IDLE at the new fetch index with the fetch fault
clear. -/
def Obligations.ChResumeChecksAndResumes : Prop :=
  ∀ (s : State) (r : CommandRecord) (c : ChanId), s.part.port.answers .adminRead →
    r.zerosHold 9 = true → r.byte 4 = c.val →
    let p := s.taken 9 r; let ch := p.chans[c]
    let status := firstFailing
      [ (decide (ch.state = .stopped), .badState)
      , (ch.pendingReport.isNone, .badState)
      , (decide (r.half 16 < ch.ringSize), .badParam) ]
    (status ≠ .ok → exec (.chResume r) s = .next (s.granted (p.complete status ⟨0, 0, 0, 0⟩)))
    ∧ (status = .ok → exec (.chResume r) s = .next (s.granted (Part.complete
        { p with
          chans := p.chans.set c
            { ch with state := .idle, fetchIndex := r.half 16, fetchFault := false } } .ok ⟨0, 0, 0, 0⟩)))

/-- R153, R172: CH_READ is accepted in every channel state and returns the snapshot, each field at its position in
the four result words; nothing but the admin unit changes. -/
def Obligations.ChReadReturnsTheSnapshot : Prop :=
  ∀ (s : State) (r : CommandRecord) (c : ChanId), s.part.port.answers .adminRead →
    r.zerosHold 10 = true → r.byte 4 = c.val →
    let p := s.taken 10 r; let ch := p.chans[c]
    ch.fetchIndex < 1024 → ch.tail < 1024 → ch.window.length ≤ 4 →
    ∃ w : Results, exec (.chRead r) s = .next (s.granted (p.complete .ok w))
      ∧ (w.word0.extractLsb' 0 3).toNat =
          (match ch.state with
            | .closed => 0 | .idle => 1 | .waiting => 2 | .active => 3 | .held => 4 | .stopped => 5
            | .subordinate => 6)
      ∧ (w.word0.extractLsb' 3 2).toNat =
          (match ch.cls with | none => 0 | some .output => 1 | some .input => 2)
      ∧ (∀ e, ch.active = some e → e.record.kind.toNat < 16 →
          (w.word0.extractLsb' 5 4).toNat = e.record.kind.toNat ∧ w.word1.extractLsb' 0 16 = e.record.tag)
      ∧ (ch.active = none → w.word0.extractLsb' 5 4 = 0 ∧ w.word1.extractLsb' 0 16 = 0)
      ∧ (w.word0.extractLsb' 9 3).toNat = ch.window.length
      ∧ (w.word0.extractLsb' 12 10).toNat = ch.fetchIndex ∧ (w.word0.extractLsb' 22 10).toNat = ch.tail
      ∧ w.word1.extractLsb' 16 8 = ch.seq ∧ w.word1.getLsbD 24 = ch.pendingReport.isSome
      ∧ w.word1.getLsbD 25 = p.pool.reservedBusy c ∧ w.word1.getLsbD 26 = ch.fetchFault
      ∧ w.word1.getLsbD 27 = ch.halt.isSome ∧ w.word1.getLsbD 28 = ch.fetchInFlight
      ∧ w.word1.extractLsb' 29 3 = 0
      ∧ w.word2 = BitVec.ofNat 32 ch.counter ∧ w.word3 = BitVec.ofNat 32 ch.position

/-- R94, R95, R99, R154: PAIR_JOIN and PAIR_SPLIT of pair `j`: their checks, the pair table's entry, the odd
channel's values of R1 (the fetcher's flags kept, the model's choice of log entry 21; the values of the fields that
R1's table does not list are the model's choice of log entry 5), and the even channel's position and counter reduced at
a split. -/
def Obligations.PairCommandsJoinAndSplit : Prop :=
  ∀ (s : State) (r : CommandRecord) (j : Fin 4), s.part.port.answers .adminRead →
    r.zerosHold 11 = true → r.byte 4 = 2 * j.val →
    let p := s.taken 11 r; let u := s.taken 12 r
    let even := s.part.chans[evenOf j]; let odd := s.part.chans[oddOf j]
    let rest := even.state = .closed ∨ even.state = .stopped
    let blank (state : ChState) : Channel :=
      { Channel.reset with state := state, fetchInFlight := odd.fetchInFlight, stale := odd.stale }
    (rest ∧ odd.state = .closed ∧ odd.pendingReport = none →
      exec (.pairJoin r) s = .next (s.granted (Part.complete
        { p with pairs := p.pairs.set j true, chans := p.chans.set (oddOf j) (blank .subordinate) } .ok
        ⟨0, 0, 0, 0⟩)))
    ∧ (¬ (rest ∧ odd.state = .closed ∧ odd.pendingReport = none) →
      exec (.pairJoin r) s = .next (s.granted (p.complete .badState ⟨0, 0, 0, 0⟩)))
    ∧ (s.part.pairs[j] = true ∧ rest →
      exec (.pairSplit r) s = .next (s.granted (Part.complete
        { u with
          pairs := u.pairs.set j false
          chans := (u.chans.set (oddOf j) (blank .closed)).set (evenOf j)
            { even with counter := even.counter % 65536, position := even.position % 65536 } } .ok
        ⟨0, 0, 0, 0⟩)))
    ∧ (¬ (s.part.pairs[j] = true ∧ rest) →
      exec (.pairSplit r) s = .next (s.granted (u.complete .badState ⟨0, 0, 0, 0⟩)))

/-- R66, R155: POS_SET's checks in their order, and its effect; result word 0 is the position before the set. R91, R156:
LINE_PARK sets the park level of the line and nothing else of the line table; a line above 15 or an unknown level is
refused. -/
def Obligations.PosSetAndLineParkCheckAndSet : Prop :=
  (∀ (s : State) (r : CommandRecord) (c : ChanId), s.part.port.answers .adminRead →
     r.zerosHold 13 = true → r.byte 4 = c.val →
     let p := s.taken 13 r; let ch := p.chans[c]
     let joined := c.val % 2 = 0 ∧ ∀ j : Fin 4, evenOf j = c → p.pairs[j] = true
     let status := firstFailing
       [ (decide (ch.state ≠ .closed ∧ ch.state ≠ .subordinate ∧ ch.cls = some .input), .badState)
       , (decide (joined ∨ (r.word 8).toNat ≤ 65535), .badParam) ]
     (status ≠ .ok → exec (.posSet r) s = .next (s.granted (p.complete status ⟨0, 0, 0, 0⟩)))
     ∧ (status = .ok → exec (.posSet r) s = .next (s.granted (Part.complete
         { p with chans := p.chans.set c { ch with position := (r.word 8).toNat } } .ok
         ⟨BitVec.ofNat 32 ch.position, 0, 0, 0⟩))))
    ∧ (∀ (s : State) (r : CommandRecord), s.part.port.answers .adminRead → r.zerosHold 14 = true →
         let p := s.taken 14 r
         (15 < r.byte 4 ∨ r.byte 5 = 0 ∨ 3 < r.byte 5 →
           exec (.linePark r) s = .next (s.granted (p.complete .badParam ⟨0, 0, 0, 0⟩)))
         ∧ (∀ i : LineId, r.byte 4 = i.val → 1 ≤ r.byte 5 → r.byte 5 ≤ 3 →
           exec (.linePark r) s = .next (s.granted (Part.complete
             { p with lines := p.lines.set i { p.lines[i] with
               park := if r.byte 5 = 1 then .low else if r.byte 5 = 2 then .high else .float } } .ok
             ⟨0, 0, 0, 0⟩))))

/-! ### The port and its answers -/

/-- R159: the arbiter's choice. A BUSY port grants nothing; on an IDLE port the ACQ write goes first, then the
first asking ring after the write rotation pointer, then the first eligible channel after the fetch rotation
pointer, then the admin or the configuration read; with nobody asking nothing is granted. -/
def Obligations.ArbiterGrantsInOrder : Prop :=
  ∀ (p : Part) (tb : Ticks),
    (p.port.current.isSome = true → p.grant tb = p)
    ∧ (p.port.current = none →
      (∀ e, p.admin.asksWrite = some e → p.grant tb = p.grantAcq tb e)
      ∧ (p.admin.asksWrite = none → ∀ (q : RingId) (e : Entry) (part : EntryPart),
          p.ringAsks q = some (e, part) →
          (∀ d : RingId, p.ringAsks d ≠ none → (q - (p.port.writePointer + 1)).val ≤
            (d - (p.port.writePointer + 1)).val) → p.grant tb = p.grantEntry tb q e part)
      ∧ (p.admin.asksWrite = none → (∀ q : RingId, p.ringAsks q = none) →
          ∀ c : ChanId, p.chans[c].eligible = true →
          (∀ d : ChanId, p.chans[d].eligible = true → (c - (p.port.fetchPointer + 1)).val ≤
            (d - (p.port.fetchPointer + 1)).val) → p.grant tb = p.grantStep tb c)
      ∧ (p.admin.asksWrite = none → (∀ q : RingId, p.ringAsks q = none) →
          (∀ c : ChanId, p.chans[c].eligible = false) →
          p.grant tb = if p.asksAdminRead then p.grantAdminRead tb
            else if p.asksConfigRead then p.grantConfig tb else p))

/-- R5, R134, R157, R158, R160, R161: who asks, and what a grant of a step read, an admin read and the configuration
read sets: the transaction's kind, address and response limit, the flags of its requester and the pointer. R114 to
R117, R138, R158: which part of its head entry a ring asks to write, with the free space it needs, and what the
grants of an entry write and of an ACQ write set. That a channel asks for a slot whose step it still runs, as R160 says
and R4 does not, is the model's choice (log entry 32). -/
def Obligations.GrantsSetTheTransaction : Prop :=
  (∀ (p : Part) (tb : Ticks) (c : ChanId), let ch := p.chans[c]
     (ch.eligible = true ↔
       (ch.state = .idle ∨ ch.state = .waiting ∨ ch.state = .active ∨ ch.state = .held)
         ∧ ch.halt = none ∧ ch.fetchFault = false ∧ ch.fetchInFlight = false ∧ ch.window.length < 4
         ∧ ch.fetchIndex ≠ ch.tail)
     ∧ (p.asksAdminRead = true ↔ p.device.state = .running ∧ p.admin.unit = .idle
         ∧ p.admin.fetchIndex ≠ p.admin.tail)
     ∧ (p.asksConfigRead = true ↔ p.device.state = .starting ∧ p.device.configGranted = false)
     ∧ p.grantStep tb c = { p with
         chans := p.chans.set c { ch with fetchInFlight := true, stale := false }
         port := { p.port with
           current := some
             { kind := .stepRead c, address := ch.ringBase + BitVec.ofNat 32 (ch.fetchIndex * 32)
               data := 0, limit := tb + 65536 }
           fetchPointer := c } }
     ∧ p.grantAdminRead tb = { p with
         admin := { p.admin with unit := .fetching }
         port := { p.port with
           current := some
             { kind := .adminRead
               address := p.admin.ringBase + BitVec.ofNat 32 (p.admin.fetchIndex * 32)
               data := 0, limit := tb + 65536 } } }
     ∧ p.grantConfig tb = { p with
         device := { p.device with configGranted := true }
         port := { p.port with
           current := some
             { kind := .configRead, address := p.device.cfgBase, data := 0, limit := tb + 65536 } } })
    ∧ (∀ (p : Part) (tb : Ticks) (q : RingId) (e : Entry) (part : EntryPart), let g := p.rings[q]
         (p.ringAsks q = some (e, part) ↔
           ∃ st rest, p.pool.lists[q] = st :: rest ∧ st.entry = e ∧ g.state = .ready ∧ g.inFlight = false
             ∧ (part = .single ∧ e.isLong = false ∧ 1 ≤ g.size - 1 - g.outstanding
               ∨ part = .stats ∧ e.isLong = true ∧ g.halfWritten = true ∧ 1 ≤ g.size - 1 - g.outstanding
               ∨ part = .longFirst ∧ e.isLong = true ∧ g.halfWritten = false ∧ g.writeIndex + 1 ≠ g.size
                   ∧ 2 ≤ g.size - 1 - g.outstanding
               ∨ part = .pad ∧ e.isLong = true ∧ g.halfWritten = false ∧ g.writeIndex + 1 = g.size
                   ∧ 3 ≤ g.size - 1 - g.outstanding))
         ∧ p.grantEntry tb q e part = { p with
             rings := p.rings.set q { g with inFlight := true }
             port := { p.port with
               current := some
                 { kind := .entryWrite q part, address := g.base + BitVec.ofNat 32 (g.writeIndex * 32)
                   data := e.partBytes part g.phase, limit := tb + 65536 }
               writePointer := q } }
         ∧ (∀ a : AcqEntry, (p.admin.asksWrite = some a ↔ p.admin.unit = .posting
               ∧ 1 ≤ p.admin.acqSize - 1 - p.admin.acqOutstanding ∧ p.admin.completion = some a)
             ∧ p.grantAcq tb a = { p with
                 port := { p.port with
                   current := some
                     { kind := .acqWrite
                       address := p.admin.acqBase + BitVec.ofNat 32 (p.admin.acqWrite * 32)
                       data := a.toBytes p.admin.acqPhase, limit := tb + 65536 } } }))

/-- R6: a step record that returns to a channel with no halt request, and whose stale mark is clear, joins the end
of the window with its ring index, the fetch index advances and the flag clears; nothing else happens behind an active
step with a GOOD step armed that neither preempts nor supersedes it, on a WAITING channel, and on a HELD channel whose
reserved slot, and where a removal report waits every shared slot, is occupied. R6, R24: the result of a step read, data
or error, is discarded where the stale mark is set or the channel is CLOSED or STOPPED or holds a halt request: only the
fetcher's two flags clear. R8, R10, R11, R13, R18, R67: behind an active step with nothing armed, the arriving step is
armed. Where it is GOOD it waits, or, IMMEDIATE, ends the active step PREEMPTED, or, behind a continuous POSITION step,
ends it SUPERSEDED; it then starts at the same event, or is HELD where the STEP_DONE took the reserved slot. R77, R78,
R81: an AT_TIME or ON_MARK step behind a continuous POSITION step is judged once that has ended: it waits, or starts or
is HELD at once, LATE where it is, or is removed with LATE_SKIPPED. A step that fails validation is removed with
BAD_STEP, or kept with its report where no shared slot is free, and the active step runs on; that its report has
UNDERRUN clear is read by inference (log entry 18). The POSITION step that a CHAIN POSITION step supersedes first counts
the edge of the tick that it had not taken (R43, R67, log entry 38, read by inference); that a POSITION step which is
preempted before its first tick has its position register as value, as R67 says, where R13 speaks of the value 0, is read
by inference too (log entry 35), and that the tick of the end does not count in the counter that a HELD channel keeps is
the model's choice (log entry 42). -/
def Obligations.ReadsJoinTheWindowOrAreDiscarded : Prop :=
  (∀ (s : State) (w : Slot) (c : ChanId) (e : Machine.Step) (rest : List Machine.Step),
     s.part.port.answers (.stepRead c) →
     let p := s.part.endTransaction; let ch := p.chans[c]
     ch.queue = e :: rest → ch.halt = none → ch.stale = false →
     (ch.state = .active ∧ ch.armed = .good ∧ (∃ a, ch.active = some a ∧ e.record.start ≠ 1
         ∧ ¬ (a.record.kindOf = some .position ∧ a.record.count = 0))
       ∨ ch.state = .waiting ∧ ch.active = none ∧ ch.armed = .good ∧ ch.evaluation ≠ .none
       ∨ ch.state = .held ∧ ch.active = none ∧ ch.evaluation = .none ∧ p.pool.reservedBusy c = true
         ∧ ((∃ late, ch.armed = .due late true)
           ∨ p.pool.hasShared = false ∧ ∃ status value time, ch.armed = .removal status value time)) →
     exec (.stepReadReturn w) s = .next (s.granted
       { p with chans := p.chans.set c { ch with
           queue := ch.queue ++ [(⟨ch.fetchIndex, StepRecord.ofBytes w⟩ : Machine.Step)]
           fetchIndex := if ch.fetchIndex + 1 < ch.ringSize then ch.fetchIndex + 1 else 0
           fetchInFlight := false, stale := false } }))
    ∧ (∀ (s : State) (w : Slot) (c : ChanId), s.part.port.answers (.stepRead c) →
         let p := s.part.endTransaction; let ch := p.chans[c]
         ch.Law →
         ch.stale = true ∨ ch.state = .closed ∨ ch.state = .stopped ∨ ch.halt.isSome = true →
         exec (.stepReadReturn w) s = .next (s.granted
             { p with chans := p.chans.set c { ch with fetchInFlight := false, stale := false } })
           ∧ exec .stepReadError s = .next (s.granted
             { p with chans := p.chans.set c { ch with fetchInFlight := false, stale := false } }))
    ∧ (∀ (s : State) (w : Slot) (c : ChanId) (a : Machine.Step) (q : RingId),
         s.part.port.answers (.stepRead c) →
         let p := s.part.endTransaction; let ch := p.chans[c]; let r := StepRecord.ofBytes w
         let e : Machine.Step := ⟨ch.fetchIndex, r⟩
         let next := if ch.fetchIndex + 1 < ch.ringSize then ch.fetchIndex + 1 else 0
         let arrived : Channel := { ch with fetchIndex := next, fetchInFlight := false, stale := false }
         let queued : Channel := { arrived with queue := [e] }
         let base : Part := { p with chans := p.chans.set c queued }
         let continuous := a.record.kindOf = some .position ∧ a.record.count = 0
         let edge := ch.running = true ∧ ch.edgeTaken = false
           ∧ (s.clock.rises ch.bLine = true ∨ s.clock.falls ch.bLine = true)
         let p1 := if continuous ∧ r.start = 0 ∧ r.kindOf = some .position ∧ edge
           then base.edgeCounted s.clock c q a.record else base
         let status : DoneStatus := if r.start = 1 then .preempted else .superseded
         let d := (r.startTime - (s.tb + 1)).toNat
         let due := r.start = 1 ∨ continuous ∧ (r.start = 0 ∨ r.start = 2 ∧ (d = 0 ∨ 2 ^ 47 ≤ d ∧ r.strict = false))
         let late := decide (r.start = 2 ∧ d ≠ 0)
         ch.state = .active → ch.active = some a → ch.queue = [] → ch.armed = .none → ch.halt = none →
         ch.evaluation = .none → ch.stale = false → ch.bound = some q →
         (validate ch (p.wide c) r = none → r.start ≠ 1 → ¬ continuous →
           exec (.stepReadReturn w) s = .next (s.granted
             { p with chans := p.chans.set c { queued with armed := .good } }))
         ∧ (∀ code, validate ch (p.wide c) r = some code → p.pool.hasShared = true →
           exec (.stepReadReturn w) s = .next (s.granted
             { p with
               chans := p.chans.set c arrived.afterAdmission
               pool := p.poolWith c q .shared s.tb (.stepDone
                 { tag := r.tag, status := .badStep
                   flags := { late := false, heldStart := false, underrun := false, forced := false }
                   value := code, sqHead := next, flushed := 0, fetchError := false, firstTag := 0
                   stats := none }) }))
         ∧ (∀ code, validate ch (p.wide c) r = some code → p.pool.hasShared = false →
           exec (.stepReadReturn w) s = .next (s.granted
             { p with chans := p.chans.set c { queued with armed := .removal .badStep code s.tb } }))
         ∧ (validate ch (p.wide c) r = none → due → p1.pool.hasShared = true → p1.pool.reservedBusy c = false →
           exec (.stepReadReturn w) s = .next (s.withPart (Part.closeStep
             (p1.stepHandsOver c q s.tb a status e late) s.clock s.part.marks)))
         ∧ (validate ch (p.wide c) r = none → due → p1.pool.hasShared = false →
           exec (.stepReadReturn w) s = .next (s.withPart (Part.closeStep
             (p1.stepHolds c q s.tb a status e late) s.clock s.part.marks)))
         ∧ (let ended := base.stepEnded c q s.tb a .superseded
            let left := ended.chans[c]
            (∀ evaluation : Evaluation, validate ch (p.wide c) r = none → continuous →
              (r.start = 2 ∧ 0 < d ∧ d < 2 ^ 47 ∧ evaluation = .atTime r.startTime
                ∨ r.start = 3 ∧ ∃ source : ChanId, source.val = r.markSource.toNat
                  ∧ evaluation = .onMark source (if r.startTimeout = 0 then none
                    else some (s.tb + r.startTimeout.setWidth 48))) →
              exec (.stepReadReturn w) s = .next (s.withPart (Part.closeStep
                { ended with chans := ended.chans.set c { left with
                    state := .waiting, armed := .good, evaluation := evaluation } } s.clock s.part.marks)))
            ∧ (validate ch (p.wide c) r = none → continuous → r.start = 2 → 2 ^ 47 ≤ d → r.strict = true →
                ch.fetchFault = false →
              let value := min (2 ^ 48 - d) 4294967295
              (ended.pool.hasShared = true ∨ ended.pool.reservedBusy c = false →
                exec (.stepReadReturn w) s = .next (s.withPart (Part.closeStep
                  (ended.removalStaged c q ended.pool.slotForReport s.tb e .lateSkipped value) s.clock
                  s.part.marks)))
              ∧ (ended.pool.hasShared = false → ended.pool.reservedBusy c = true →
                exec (.stepReadReturn w) s = .next (s.withPart (Part.closeStep
                  { ended with chans := ended.chans.set c { left with
                      state := .held, armed := .removal .lateSkipped value s.tb } } s.clock s.part.marks))))))

/-- R6, R8, R11, R14, R33: a valid CHAIN or IMMEDIATE step that arrives at an IDLE channel whose reserved slot is
empty starts at that event: its counts restart, its flags are clear, its lines take its first levels, and its
START mark is emitted. R12: where the reserved slot is occupied, the channel is HELD. R77, R78: a valid AT_TIME step
is judged at once, by the lateness of its start_time against the next tick: it waits for its tick; or starts at once,
with LATE where it is late and not strict; or, late and strict, is removed with LATE_SKIPPED and the lateness as
value, or HELD until its report can be staged. R77, R81: a valid ON_MARK step waits on its source, with the expiry
that its start_timeout gives. -/
def Obligations.StepStartsOnAnIdleChannel : Prop :=
  (∀ (s : State) (w : Slot) (c : ChanId), s.part.port.answers (.stepRead c) →
    let p := s.part.endTransaction; let ch := p.chans[c]; let r := StepRecord.ofBytes w
    let e : Machine.Step := ⟨ch.fetchIndex, r⟩
    ch.state = .idle → ch.active = none → ch.queue = [] → ch.armed = .none → ch.halt = none →
    ch.evaluation = .none → ch.stale = false → ch.fetchFault = false →
    p.pool.reservedBusy c = false → validate ch (p.wide c) r = none → r.start = 0 ∨ r.start = 1 →
    exec (.stepReadReturn w) s = .next (s.withPart (Part.closeStep
      { p with
        chans := p.chans.set c
          { startedChannel ch e false false with
            fetchIndex := if ch.fetchIndex + 1 < ch.ringSize then ch.fetchIndex + 1 else 0
            fetchInFlight := false, stale := false }
        lines := linesAtStart p.lines ch r
        marks := if r.markStart then p.marks.set c true else p.marks } s.clock s.part.marks)))
    ∧ (∀ (s : State) (w : Slot) (c : ChanId) (q : RingId), s.part.port.answers (.stepRead c) →
    let p := s.part.endTransaction; let ch := p.chans[c]; let r := StepRecord.ofBytes w
    let e : Machine.Step := ⟨ch.fetchIndex, r⟩
    let next := if ch.fetchIndex + 1 < ch.ringSize then ch.fetchIndex + 1 else 0
    let arrived : Channel := { ch with fetchIndex := next, fetchInFlight := false, stale := false }
    let queued : Channel := { arrived with queue := [e], armed := .good }
    let d := (r.startTime - (s.tb + 1)).toNat
    let skipped := r.start = 2 ∧ 2 ^ 47 ≤ d ∧ r.strict = true
    ch.state = .idle → ch.active = none → ch.queue = [] → ch.armed = .none → ch.halt = none →
    ch.evaluation = .none → ch.stale = false → ch.fetchFault = false → ch.bound = some q →
    validate ch (p.wide c) r = none →
    (r.start = 0 ∨ r.start = 1 → p.pool.reservedBusy c = true →
      exec (.stepReadReturn w) s = .next (s.granted
        { p with chans := p.chans.set c { queued with state := .held, armed := .due false true } }))
    ∧ (r.start = 2 → 0 < d → d < 2 ^ 47 → exec (.stepReadReturn w) s = .next (s.granted
        { p with chans := p.chans.set c { queued with
            state := .waiting, evaluation := .atTime r.startTime } }))
    ∧ (r.start = 2 → d = 0 ∨ 2 ^ 47 ≤ d ∧ r.strict = false → p.pool.reservedBusy c = false →
      exec (.stepReadReturn w) s = .next (s.withPart (Part.closeStep
        { p with
          chans := p.chans.set c (startedChannel arrived e (decide (d ≠ 0)) false)
          lines := linesAtStart p.lines ch r
          marks := if r.markStart then p.marks.set c true else p.marks } s.clock s.part.marks)))
    ∧ (r.start = 2 → d = 0 ∨ 2 ^ 47 ≤ d ∧ r.strict = false → p.pool.reservedBusy c = true →
      exec (.stepReadReturn w) s = .next (s.granted
        { p with chans := p.chans.set c { queued with
            state := .held, armed := .due (decide (d ≠ 0)) true } }))
    ∧ (skipped → p.pool.hasShared = true ∨ p.pool.reservedBusy c = false →
      exec (.stepReadReturn w) s = .next (s.granted
        { p with
          chans := p.chans.set c arrived.afterAdmission
          pool := p.poolWith c q p.pool.slotForReport s.tb (.stepDone
            { tag := r.tag, status := .lateSkipped
              flags := { late := false, heldStart := false, underrun := decide (next ≠ ch.tail), forced := false }
              value := min (2 ^ 48 - d) 4294967295, sqHead := next, flushed := 0, fetchError := false
              firstTag := 0, stats := none }) }))
    ∧ (skipped → p.pool.hasShared = false → p.pool.reservedBusy c = true →
      exec (.stepReadReturn w) s = .next (s.granted
        { p with chans := p.chans.set c { queued with
            state := .held, armed := .removal .lateSkipped (min (2 ^ 48 - d) 4294967295) s.tb } }))
    ∧ (∀ source : ChanId, r.start = 3 → source.val = r.markSource.toNat →
      exec (.stepReadReturn w) s = .next (s.granted
        { p with chans := p.chans.set c { queued with
            state := .waiting
            evaluation := .onMark source (if r.startTimeout = 0 then none
              else some (s.tb + r.startTimeout.setWidth 48)) } })))

/-- R8, R10, R16, R17: a step that fails validation as it arrives at an IDLE channel leaves the window with a
BAD_STEP STEP_DONE carrying the detail code, staged in a shared slot where one is free, else in the empty
reserved slot; the channel is IDLE again. Where neither can take the report, the channel is HELD with it. -/
def Obligations.BadStepIsRemoved : Prop :=
  ∀ (s : State) (w : Slot) (c : ChanId) (q : RingId) (code : Nat), s.part.port.answers (.stepRead c) →
    let p := s.part.endTransaction; let ch := p.chans[c]; let r := StepRecord.ofBytes w
    let next := if ch.fetchIndex + 1 < ch.ringSize then ch.fetchIndex + 1 else 0
    ch.state = .idle → ch.active = none → ch.queue = [] → ch.armed = .none → ch.halt = none →
    ch.evaluation = .none → ch.stale = false → ch.fetchFault = false → ch.bound = some q →
    validate ch (p.wide c) r = some code →
    (p.pool.hasShared = true ∨ p.pool.reservedBusy c = false →
     exec (.stepReadReturn w) s = .next (s.granted
      { p with
        chans := p.chans.set c { ch with
          fetchIndex := next, fetchInFlight := false, stale := false, seq := ch.seq + 1, missed := 0 }
        pool := p.poolWith c q p.pool.slotForReport s.tb (.stepDone
          { tag := r.tag, status := .badStep
            flags := { late := false, heldStart := false, underrun := decide (next ≠ ch.tail), forced := false }
            value := code, sqHead := next, flushed := 0, fetchError := false, firstTag := 0
            stats := none }) }))
    ∧ (p.pool.hasShared = false → p.pool.reservedBusy c = true →
     exec (.stepReadReturn w) s = .next (s.granted
      { p with chans := p.chans.set c { ch with
          state := .held, queue := [(⟨ch.fetchIndex, r⟩ : Machine.Step)]
          fetchIndex := next, fetchInFlight := false, stale := false
          armed := .removal .badStep code s.tb } }))

/-- R24, R25, R103: a step read that fails at a channel with nothing active and an empty window sets the fetch
fault, and the channel becomes STOPPED and composes its FAULT, staged where a slot can take it and pending
otherwise. R24: a channel that still holds steps sets the fetch fault and goes on; R15, R17, R25: at the end of its
last step, here at a cycle end that completes the count, the STEP_DONE is staged first, and then the channel is
STOPPED with its FAULT staged or pending. -/
def Obligations.ReadErrorStopsAnIdleChannel : Prop :=
  (∀ (s : State) (c : ChanId) (q : RingId), s.part.port.answers (.stepRead c) →
    let p := s.part.endTransaction; let ch := p.chans[c]
    let body := EntryBody.fault ch.fetchIndex
    let stopped := { ch with
      state := .stopped, fetchFault := true, fetchInFlight := false, stale := false }
    ch.state = .idle → ch.active = none → ch.queue = [] → ch.halt = none → ch.stale = false →
    ch.bound = some q →
    (p.pool.hasShared = true ∨ p.pool.reservedBusy c = false → exec .stepReadError s = .next (s.granted
      { p with
        chans := p.chans.set c stopped.afterAdmission
        pool := p.poolWith c q p.pool.slotForReport s.tb body }))
    ∧ (p.pool.hasShared = false → p.pool.reservedBusy c = true → exec .stepReadError s = .next (s.granted
      { p with chans := p.chans.set c { stopped with
          pendingReport := some { channel := c, time := s.tb, body := body } } })))
    ∧ (∀ (s : State) (c : ChanId), s.part.port.answers (.stepRead c) →
        let p := s.part.endTransaction; let ch := p.chans[c]
        ch.halt = none → ch.stale = false →
        (ch.state = .active ∧ (∃ a, ch.active = some a ∧ (ch.queue = [] ∨ ∃ e rest, ch.queue = e :: rest
            ∧ ch.armed = .good ∧ e.record.start ≠ 1
            ∧ ¬ (a.record.kindOf = some .position ∧ a.record.count = 0)))
          ∨ ch.state = .waiting ∧ ch.active = none ∧ ch.queue ≠ [] ∧ ch.armed = .good
            ∧ ch.evaluation ≠ .none) →
        exec .stepReadError s = .next (s.granted
          { p with chans := p.chans.set c { ch with
              fetchFault := true, fetchInFlight := false, stale := false } }))
    ∧ (∀ (s : State) (c : ChanId) (e : Machine.Step) (q : RingId), let p := s.part; let ch := p.chans[c]
        let r := e.record
        let n := if ch.cycleCount < 4294967295 then ch.cycleCount + 1 else ch.cycleCount
        let p1 : Part := Part.stepEnded
          { p with
            chans := p.chans.set c { ch with cycleCount := n, oddCycle := !ch.oddCycle }
            marks := if r.markCycle then p.marks.set c true else p.marks } c q s.tb e .done
        ch.state = .active → ch.active = some e → ch.running = true → ch.counted = false → ch.bound = some q →
        r.isOutput = true → ch.phase + 1 = 2 ^ r.prescale.toNat → ch.counter = r.top.toNat → ch.halt = none →
        r.count ≠ 0 → n = r.count.toNat → ch.queue = [] → ch.fetchFault = true →
        exec (.cycleEnd c) s = .next (s.withPart (Part.closeStep (Part.reportComposed
          { p1 with chans := p1.chans.set c { p1.chans[c] with state := .stopped } } c q s.tb
          (.fault ch.fetchIndex)) s.clock p.marks)))

/-- R114, R115, R125: the write of a single-slot entry that no waiting offer and no CQ_RESET attends: the write index
advances, the phase inverts at the wrap, outstanding advances, the entry is counted by the notice unit, and its shared
slot is freed. R116, R117: the first write of a long STEP_DONE leaves the ring half written, and neither it nor a PAD
write is counted by the notice unit or frees a slot; at PAD the write index wraps. R116: the second write of a long
STEP_DONE clears half written, and the entry is counted once and its slot freed. R109: a freed reserved slot is made
known to its channel: a channel that holds nothing for it leaves it empty, a pending report is staged, in a shared
slot where one is free and else in the reserved one, and so is a removal report. R122, R145: where a CQ_RESET waits
for the write, the write is handled as usual and the ring then restarts at slot 0, and the command completes with the
number of entries in the list. R108: a shared slot freed while channels wait with offers goes to the first of them
after the rotation pointer, which moves to it: a removal report is staged and its step leaves the window, on a HELD
channel and behind an active step alike, and the step behind it is armed at the same event: on a HELD channel it
starts, or is HELD for the reserved slot, and behind an active step it waits, or is removed in its turn (R8, R10, R11,
R12); a pending report is staged, and a FLUSH among them completes the command that waits for it (R23, R149). That
UNDERRUN of a removal report that waited is judged as it is staged is the model's choice, and that it is clear behind
an active step is read by inference (log entry 18). -/
def Obligations.EntryWritesAdvanceTheRing : Prop :=
  (∀ (s : State) (q : RingId) (st : Staged) (rest : List Staged),
     s.part.port.answers (.entryWrite q .single) →
     let p := s.part.endTransaction; let g := p.rings[q]
     p.pool.lists[q] = st :: rest → st.slot = .shared → (∀ c : ChanId, p.chans[c].hasOffer = false) →
     ¬ (p.admin.unit = .waiting ∧ p.admin.waitingOn = .ring q) →
     exec .entryWriteDone s = .next (s.granted
       { p with
         rings := p.rings.set q { g with
           writeIndex := if g.writeIndex + 1 < g.size then g.writeIndex + 1 else 0
           phase := if g.writeIndex + 1 < g.size then g.phase else !g.phase
           outstanding := g.outstanding + 1
           inFlight := false }
         pool := { p.pool with lists := p.pool.lists.set q rest }
         notices := p.notices.set q (p.notices[q].countEntry s.tb st.entry.isUrgent) }))
    ∧ (∀ (s : State) (q : RingId) (half : Bool),
         s.part.port.answers (.entryWrite q (if half then .longFirst else .pad)) →
         let p := s.part.endTransaction; let g := p.rings[q]
         ¬ (p.admin.unit = .waiting ∧ p.admin.waitingOn = .ring q) →
         exec .entryWriteDone s = .next (s.granted
           { p with rings := p.rings.set q { g with
               writeIndex := if g.writeIndex + 1 < g.size then g.writeIndex + 1 else 0
               phase := if g.writeIndex + 1 < g.size then g.phase else !g.phase
               outstanding := g.outstanding + 1
               inFlight := false
               halfWritten := half || g.halfWritten } }))
    ∧ (∀ (s : State) (q : RingId) (part : EntryPart) (st : Staged) (rest : List Staged),
         s.part.port.answers (.entryWrite q part) → part = .single ∨ part = .stats →
         let p := s.part.endTransaction; let g := p.rings[q]
         let written : Part := { p with
           rings := p.rings.set q { g with
             writeIndex := if g.writeIndex + 1 < g.size then g.writeIndex + 1 else 0
             phase := if g.writeIndex + 1 < g.size then g.phase else !g.phase
             outstanding := g.outstanding + 1
             inFlight := false
             halfWritten := if part = .stats then false else g.halfWritten }
           pool := { p.pool with lists := p.pool.lists.set q rest }
           notices := p.notices.set q (p.notices[q].countEntry s.tb st.entry.isUrgent) }
         p.pool.lists[q] = st :: rest → (st.slot = .shared →
         ((∀ c : ChanId, p.chans[c].hasOffer = false) →
           (¬ (p.admin.unit = .waiting ∧ p.admin.waitingOn = .ring q) →
             exec .entryWriteDone s = .next (s.granted written))
           ∧ (∀ k : Command, p.admin.unit = .waiting → p.admin.waitingOn = .ring q →
               p.admin.current = some k →
             exec .entryWriteDone s = .next (s.granted (Part.complete
               { written with
                 rings := p.rings.set q
                   { state := .ready, base := if k.record.bit 5 then k.record.word 8 else g.base
                     size := g.size, writeIndex := 0, phase := true, hostHead := 0, outstanding := 0
                     inFlight := false, halfWritten := false } } .ok
               ⟨BitVec.ofNat 32 rest.length, 0, 0, 0⟩))))
         ∧ (∀ (c : ChanId) (q2 : RingId), let ch := p.chans[c]
             let mine : Part := { written with pool := { written.pool with rotation := c } }
             ch.hasOffer = true → (∀ x : ChanId, p.chans[x].hasOffer = true →
               (c - (p.pool.rotation + 1)).val ≤ (x - (p.pool.rotation + 1)).val) →
             ch.bound = some q2 → (p.pool.dropHead q).hasShared = true →
             ¬ (p.admin.unit = .waiting ∧ p.admin.waitingOn = .ring q) →
             (∀ d : Draft, ch.pendingReport = some d → ch.state = .stopped ∨ ch.state = .closed →
               exec .entryWriteDone s = .next (s.granted (mine.pendingStaged c q2 .shared d)))
             ∧ (∀ (e : Machine.Step) (behind : List Machine.Step) (status : DoneStatus) (value : Nat) (time : Ticks),
                 ch.pendingReport = none → ch.armed = .removal status value time → ch.queue = e :: behind →
                 ch.window.length ≤ 4 → ch.halt = none →
                 let left := mine.removalStaged c q2 .shared time e status value behind
                 (ch.state = .held → ch.active = none → ch.evaluation = .none →
                   (behind = [] → ch.fetchFault = false → exec .entryWriteDone s = .next (s.granted left))
                   ∧ (∀ (e2 : Machine.Step) (more : List Machine.Step), behind = e2 :: more →
                       validate ch (p.wide c) e2.record = none → e2.record.start = 0 ∨ e2.record.start = 1 →
                       e2.runsOn more →
                     exec .entryWriteDone s = .next (s.withPart (Part.closeStep
                       (left.chainProceeds c q2 s.tb e2 more) s.clock s.part.marks))))
                 ∧ (∀ a : Machine.Step, ch.state = .active → ch.active = some a → a.runsOn behind →
                   exec .entryWriteDone s = .next (s.granted (Part.armBehind c q2 s.tb behind left))))))
         ∧ (∀ (c : ChanId) (q2 : RingId), let ch := p.chans[c]; let slot := (p.pool.dropHead q).slotForReport
             st.isReservedOf c = true → (p.pool.dropHead q).reservedBusy c = false → ch.active = none →
             ¬ (p.admin.unit = .waiting ∧ p.admin.waitingOn = .ring q) →
             (ch.Law → ch.pendingReport = none → ch.state ≠ .held → (ch.state = .idle → ch.fetchFault = false) →
               exec .entryWriteDone s = .next (s.granted written))
             ∧ (∀ d : Draft, ch.bound = some q2 → ch.pendingReport = some d →
                 ch.state = .stopped ∨ ch.state = .closed →
               exec .entryWriteDone s = .next (s.granted (written.pendingStaged c q2 slot d)))
             ∧ (∀ (e : Machine.Step) (behind : List Machine.Step) (status : DoneStatus) (value : Nat) (time : Ticks),
                 ch.bound = some q2 → ch.pendingReport = none → ch.armed = .removal status value time →
                 ch.queue = e :: behind → ch.window.length ≤ 4 → ch.state = .held → ch.halt = none →
                 ch.evaluation = .none →
                 let left := written.removalStaged c q2 slot time e status value behind
                 (behind = [] → ch.fetchFault = false → exec .entryWriteDone s = .next (s.granted left))
                 ∧ (∀ (e2 : Machine.Step) (more : List Machine.Step), behind = e2 :: more →
                     validate ch (p.wide c) e2.record = none → e2.record.start = 0 ∨ e2.record.start = 1 →
                     e2.runsOn more →
                   exec .entryWriteDone s = .next (s.withPart (Part.closeStep
                     (left.chainProceeds c q2 s.tb e2 more) s.clock s.part.marks))))))
    ∧ (∀ (s : State) (q : RingId) (part : EntryPart) (k : Command),
         s.part.port.answers (.entryWrite q part) → part = .longFirst ∨ part = .pad →
         let p := s.part.endTransaction; let g := p.rings[q]
         p.admin.unit = .waiting → p.admin.waitingOn = .ring q → p.admin.current = some k →
         exec .entryWriteDone s = .next (s.granted (Part.complete
           { p with
             rings := p.rings.set q
               { state := .ready, base := if k.record.bit 5 then k.record.word 8 else g.base
                 size := g.size, writeIndex := 0, phase := true, hostHead := 0, outstanding := 0
                 inFlight := false, halfWritten := false } } .ok
           ⟨BitVec.ofNat 32 p.pool.lists[q].length, 0, 0, 0⟩)))

/-- R12, R109: when the writer has written the entry in its reserved slot, a HELD channel starts its GOOD armed step
with HELD_START recorded, and keeps the LATE it was judged with; where the entry is a long STEP_DONE, that is at its
second write (R116). R8, R10, R14: the steps behind it are armed at the same event. That a report removed behind an
active step has UNDERRUN clear is read by inference (log entry 18). -/
def Obligations.FreedReservedSlotStartsTheHeldStep : Prop :=
  ∀ (s : State) (q q2 : RingId) (c : ChanId) (st : Staged) (rest : List Staged) (e : Machine.Step)
      (behind : List Machine.Step) (late : Bool) (part : EntryPart),
    s.part.port.answers (.entryWrite q part) → part = .single ∨ part = .stats →
    let p := s.part.endTransaction; let ch := p.chans[c]
    p.pool.lists[q] = st :: rest → st.isReservedOf c = true → ch.state = .held →
    (p.pool.dropHead q).reservedBusy c = false → ch.pendingReport = none → ch.halt = none →
    ch.active = none → ch.queue = e :: behind → ch.window.length ≤ 4 → ch.armed = .due late true →
    e.runsOn behind → (behind ≠ [] → ch.bound = some q2) →
    ¬ (p.admin.unit = .waiting ∧ p.admin.waitingOn = .ring q) →
    exec .entryWriteDone s = .next (s.withPart (Part.closeStep
      (Part.stepStarts
        { p with
          rings := p.rings.set q
            (if part = .stats then { p.rings[q].advance with halfWritten := false } else p.rings[q].advance)
          pool := { p.pool with lists := p.pool.lists.set q rest }
          notices := p.notices.set q (p.notices[q].countEntry s.tb st.entry.isUrgent) }
        c q2 s.tb e late true behind) s.clock s.part.marks))

/-- R118, R122, R145: a failed entry write makes the ring FAULTED and moves nothing else of it; where a CQ_RESET
waits for the write, the ring is then restarted at slot 0 and the command completes with the number of entries in
its list. -/
def Obligations.EntryWriteErrorFaultsTheRing : Prop :=
  ∀ (s : State) (q : RingId) (part : EntryPart), s.part.port.answers (.entryWrite q part) →
    let p := s.part.endTransaction; let g := p.rings[q]
    (¬ (p.admin.unit = .waiting ∧ p.admin.waitingOn = .ring q) → exec .entryWriteError s = .next (s.granted
      { p with rings := p.rings.set q { g with state := .faulted, inFlight := false } }))
    ∧ (∀ k : Command, p.admin.unit = .waiting → p.admin.waitingOn = .ring q →
        p.admin.current = some k → exec .entryWriteError s = .next (s.granted (Part.complete
          { p with
            rings := p.rings.set q
              { state := .ready
                base := if k.record.bit 5 then k.record.word 8 else g.base
                size := g.size, writeIndex := 0, phase := true, hostHead := 0, outstanding := 0
                inFlight := false, halfWritten := false } } .ok
          ⟨BitVec.ofNat 32 p.pool.lists[q].length, 0, 0, 0⟩)))

/-- R125, R126, R138: an ACQ write that succeeds advances the write index, inverts the phase at the wrap, advances
outstanding, and is counted as context 4, urgent unless its status is OK; the unit is IDLE with no command. -/
def Obligations.AcqWriteCompletesTheCommand : Prop :=
  ∀ s : State, s.part.port.answers .acqWrite →
    let p := s.part.endTransaction; let a := p.admin
    exec .acqWriteDone s = .next (s.granted
      { p with
        admin := { a with
          acqWrite := if a.acqWrite + 1 < a.acqSize then a.acqWrite + 1 else 0
          acqPhase := if a.acqWrite + 1 < a.acqSize then a.acqPhase else !a.acqPhase
          acqOutstanding := a.acqOutstanding + 1
          current := none, completion := none, unit := .idle }
        notices := p.notices.set 4 (p.notices[4].countEntry s.tb
          (a.completion.any fun e => decide (e.status ≠ .ok))) })

/-- R125, R127: counting an entry: unnoticed advances, the hold-off timer starts with the first uncounted entry, and a
notice is raised where the count reaches the threshold or the entry is urgent: pending is set, unnoticed is 0 and the
timer stops. Enable, threshold, hold-off and level stand. R126: the urgent entries of a completion ring are FAULT,
FLUSH and a STEP_DONE of status BAD_STEP, NO_SIGNAL, MARK_TIMEOUT or LATE_SKIPPED, and no others. R128:
NOTICE_TIMER_EXPIRY in the tick of the expiry raises the notice. That it changes nothing in any other tick, in which
it is not due, is the model's choice (log entry 12). -/
def Obligations.NoticeCountsAnEntry : Prop :=
  (∀ e : Entry, e.isUrgent = true ↔
      match e.draft.body with
      | .fault _ => True
      | .flush .. => True
      | .stepDone b => b.status = .badStep ∨ b.status = .noSignal ∨ b.status = .markTimeout ∨ b.status = .lateSkipped
      | .capture .. => False
      | .wrap .. => False
      | .threshold .. => False)
  ∧ ∀ (n : Notice) (tb : Ticks) (urgent : Bool), let m := n.countEntry tb urgent
    (n.unnoticed + 1 = n.threshold ∨ urgent = true →
      m = { n with unnoticed := 0, timer := none, pending := true })
    ∧ (n.unnoticed + 1 ≠ n.threshold → urgent = false →
      m = { n with
        unnoticed := n.unnoticed + 1
        timer := if n.unnoticed = 0 ∧ n.holdOff ≠ 0 ∧ n.timer = none
          then some (tb + BitVec.ofNat 48 (64 * n.holdOff)) else n.timer })
    ∧ (∀ (s : State) (i : NoticeId), let p := s.part
      (p.notices[i].timer = some s.tb → exec (.noticeTimerExpiry i) s = .next (s.withPart
        { p with
          notices := p.notices.set i
            { p.notices[i] with unnoticed := 0, timer := none, pending := true } }))
      ∧ (p.notices[i].timer ≠ some s.tb → exec (.noticeTimerExpiry i) s = .next s))

/-- R135, R140, R162, R166, R167: an admin read, an ACQ write or a configuration read that fails makes the admin unit
FAULTED and the device ADMIN_FAULT with the read's or write's cause, and changes nothing else. R166: a configuration
block that returns is checked in order; the first check that fails gives the cause of ADMIN_FAULT, and a good block
makes the device RUNNING with the admin unit at the block's rings. -/
def Obligations.DeviceReadsRunOrFault : Prop :=
  (∀ s : State, let p := s.part.endTransaction
     let faulted (cause : Cause) : Host.Outcome State Fault Refusal := .next (s.granted
       { p with
         admin := { p.admin with unit := .faulted }
         device := { p.device with state := .adminFault, cause := cause } })
     (s.part.port.answers .adminRead → exec .adminReadError s = faulted .adminRead)
     ∧ (s.part.port.answers .acqWrite → exec .acqWriteError s = faulted .acqWrite)
     ∧ (s.part.port.answers .configRead → exec .configReadError s = faulted .configRead))
    ∧ (∀ (s : State) (w : BitVec 512), s.part.port.answers .configRead →
         let p := s.part.endTransaction
         let adminBase := w.extractLsb' 32 32; let adminSize := (w.extractLsb' 64 16).toNat
         let acqBase := w.extractLsb' 96 32; let acqSize := (w.extractLsb' 128 16).toNat
         let ringGood (base : Word32) (size : Nat) : Prop :=
           legalSize 4 256 size = true ∧ base.toNat % 32 = 0 ∧ base.toNat + size * 32 ≤ 2 ^ 32
         let good1 := w.extractLsb' 0 16 = 1 ∧ w.extractLsb' 16 16 = 0 ∧ w.extractLsb' 80 16 = 0
           ∧ w.extractLsb' 144 368 = 0
         let faulted (cause : Cause) : Host.Outcome State Fault Refusal := .next (s.granted
           { p with
             admin := { p.admin with unit := .faulted }
             device := { p.device with state := .adminFault, cause := cause } })
         (¬ good1 → exec (.configReadReturn w) s = faulted .configVersion)
         ∧ (good1 → ¬ ringGood adminBase adminSize → exec (.configReadReturn w) s = faulted .configAdminRing)
         ∧ (good1 → ringGood adminBase adminSize → ¬ ringGood acqBase acqSize →
             exec (.configReadReturn w) s = faulted .configAcq)
         ∧ (good1 → ringGood adminBase adminSize → ringGood acqBase acqSize →
             exec (.configReadReturn w) s = .next (s.granted
               { p with
                 admin :=
                   { unit := .idle, ringBase := adminBase, ringSize := adminSize, fetchIndex := 0, tail := 0
                     acqBase := acqBase, acqSize := acqSize, acqWrite := 0, acqPhase := true, acqHead := 0
                     acqOutstanding := 0, current := none, completion := none, deadline := none
                     waitingOn := .nothing }
                 device := { p.device with state := .running, cause := .none } })))

/-- R161, R163: the end of a transaction whose discard is set makes the port IDLE and gives the result to no block,
whatever the answer and where the response limit expires; the port then grants. R161, R162: at its response limit a
live transaction is withdrawn and ends as the bus error of its kind ends it. That RESPONSE_LIMIT_EXPIRY in any other tick,
in which it is not due, changes nothing is the model's choice (log entry 12). R161: any answer of the withdrawn
transaction's kind that arrives while the port carries no other of that kind is ignored; where it carries one, an answer
is ignored, or it is the answer to the one it carries, and an open choice of the model says which (log entry 37). Of that
last case the statement covers error answers, and every answer where discard is set; the good answers of a live
transaction beside a late one are left out. -/
def Obligations.DiscardAndResponseLimitEndTransactions : Prop :=
  (∀ (s : State) (t : Transaction), s.part.port.current = some t → s.part.port.discard = true →
     let ended (late : List TxKind) : Host.Outcome State Fault Refusal := .next (s.granted
       { s.part with port := { s.part.port with current := none, discard := false, withdrawn := late } })
     exec .discardedTransactionEnd s = ended s.part.port.withdrawn
     ∧ (t.limit = s.tb → exec .responseLimitExpiry s = ended (s.part.port.withdrawn ++ [t.kind]))
     ∧ (¬ s.part.port.lateLike t.kind →
       ∀ (i : Instr) (kind : TxKind), i.wellFormed = true → answeredKind i = some kind → kind.alike t.kind = true →
         exec i s = ended s.part.port.withdrawn))
    ∧ (∀ (s : State) (t : Transaction), s.part.port.current = some t → s.part.port.discard = false →
         let errorEnds (late : List TxKind) : Host.Outcome State Fault Refusal := .next (s.withPart
           (Part.closeStep (Part.failed
             { s.part with port := { s.part.port with current := none, discard := false, withdrawn := late } }
             s.clock t.kind) s.clock s.part.marks))
         (t.limit ≠ s.tb → exec .responseLimitExpiry s = .next s)
         ∧ (t.limit = s.tb → exec .responseLimitExpiry s = errorEnds (s.part.port.withdrawn ++ [t.kind]))
         ∧ (¬ s.part.port.lateLike t.kind →
           let failed := errorEnds s.part.port.withdrawn
           (∀ c, t.kind = .stepRead c → exec .stepReadError s = failed)
           ∧ (∀ q part, t.kind = .entryWrite q part → exec .entryWriteError s = failed)
           ∧ (t.kind = .acqWrite → exec .acqWriteError s = failed)
           ∧ (t.kind = .adminRead → exec .adminReadError s = failed)
           ∧ (t.kind = .configRead → exec .configReadError s = failed)))
    ∧ (∀ (s : State) (i : Instr) (kind : TxKind), i.wellFormed = true → answeredKind i = some kind →
         s.part.port.lateLike kind → (∀ t ∈ s.part.port.current, t.kind.alike kind = false) →
         exec i s = .next (s.withPart { s.part with port := s.part.port.lateIgnored kind }))
    ∧ (∀ (s : State) (t : Transaction) (i : Instr) (kind : TxKind), s.part.port.current = some t →
         s.part.port.lateLike t.kind → i.wellFormed = true → answeredKind i = some kind →
         kind.alike t.kind = true →
         s.part.port.discard = true ∨ i = .acqWriteError ∨ i = .adminReadError ∨ i = .configReadError
           ∨ i = .stepReadError ∨ i = .entryWriteError →
         let p : Part := { s.part with
           port := { s.part.port with current := none, discard := false }, choices := s.part.choices + 1 }
         exec i s = .next (s.withPart
             { s.part with port := s.part.port.lateIgnored t.kind, choices := s.part.choices + 1 })
           ∨ exec i s = .next (s.withPart (Part.closeStep
               (if s.part.port.discard then p else p.failed s.clock t.kind) s.clock s.part.marks)))

/-! ### Events of time and of the lines -/

/-- R78, R79, R81, R82, R10, R12: a WAITING AT_TIME step starts with the tick its start_time names, and the steps
behind it are armed at the same event (R8, R14), or is HELD with its start due where its reserved slot is occupied; a
WAITING ON_MARK step whose timeout expires is removed with status MARK_TIMEOUT and its start_timeout as value, or is
HELD until its report can be staged; a valid CHAIN or IMMEDIATE step behind the removed one then starts at the same
event, or is HELD for the reserved slot. That a report removed behind an active step has UNDERRUN clear is read by
inference (log entry 18). -/
def Obligations.ConditionsAreMetOrTimeOut : Prop :=
  ∀ (s : State) (c : ChanId) (e : Machine.Step) (behind : List Machine.Step) (q : RingId),
    let p := s.part; let ch := p.chans[c]
    ch.state = .waiting → ch.active = none → ch.queue = e :: behind → ch.window.length ≤ 4 → ch.halt = none →
    ch.bound = some q →
    (ch.evaluation = .atTime (s.tb + 1) → p.pool.reservedBusy c = false → e.runsOn behind →
      exec (.atTimeSatisfied c) s = .next (s.withPart (Part.closeStep
        (p.stepStarts c q s.tb e false false behind) s.clock p.marks)))
    ∧ (ch.evaluation = .atTime (s.tb + 1) → p.pool.reservedBusy c = true →
      exec (.atTimeSatisfied c) s = .next (s.granted
        { p with
          chans := p.chans.set c
            { ch with state := .held, evaluation := .none, armed := .due false true } }))
    ∧ (∀ source, ch.evaluation = .onMark source (some s.tb) →
        p.pool.hasShared = true ∨ p.pool.reservedBusy c = false →
      let awake : Part := { p with chans := p.chans.set c { ch with evaluation := .none } }
      let removed := awake.removalStaged c q p.pool.slotForReport s.tb e .markTimeout e.record.startTimeout.toNat behind
      (behind = [] → ch.fetchFault = false → exec (.markTimeout c) s = .next (s.granted removed))
      ∧ (∀ (e2 : Machine.Step) (rest : List Machine.Step), behind = e2 :: rest →
          validate ch (p.wide c) e2.record = none → e2.record.start = 0 ∨ e2.record.start = 1 → e2.runsOn rest →
          exec (.markTimeout c) s = .next (s.withPart (Part.closeStep
            (removed.chainProceeds c q s.tb e2 rest) s.clock p.marks))))
    ∧ (∀ source, ch.evaluation = .onMark source (some s.tb) → p.pool.hasShared = false →
        p.pool.reservedBusy c = true →
      exec (.markTimeout c) s = .next (s.granted
        { p with
          chans := p.chans.set c
            { ch with
              state := .held, evaluation := .none
              armed := .removal .markTimeout e.record.startTimeout.toNat s.tb } }))

/-- R74, R75, R76, R80, R82: a mark new on the bus satisfies, within its tick, the step of the one other channel that
waits on that signal; the step starts, with the steps behind it armed (R8, R14), and without a START mark reaches no
further channel, or is HELD with its start due where its reserved slot is occupied (R12); a mark that no other channel
waits on changes nothing. That the port grants before the mark arrives is the model's choice (log entry 9). Several
channels that wait on one mark, and marks that the starts it causes emit in turn, are left out. That a report removed
behind an active step has UNDERRUN clear is read by inference (log entry 18). -/
def Obligations.MarkStartsTheWaitingStep : Prop :=
  ∀ (p : Part) (k : Clock) (before : Vector Bool 8) (c : ChanId), p.marks = before.set c true →
    before[c] = false →
    (∀ (d : ChanId) (e : Machine.Step) (behind : List Machine.Step) (q : RingId) (expiry : Option Ticks),
      let g := p.grant k.tb; let ch := g.chans[d]
      d ≠ c → ch.state = .waiting → ch.evaluation = .onMark c expiry →
      (∀ x : ChanId, x ≠ d → x ≠ c → ∀ w, p.chans[x].evaluation ≠ .onMark c w) →
      ch.active = none → ch.queue = e :: behind → ch.window.length ≤ 4 → ch.halt = none →
      (e.record.markStart = false → p.pool.reservedBusy d = false → e.runsOn behind →
        (behind ≠ [] → ch.bound = some q) →
        p.closeStep k before = Part.grant (g.stepStarts d q k.tb e false false behind) k.tb)
      ∧ (p.pool.reservedBusy d = true →
        p.closeStep k before = Part.grant
          { g with chans := g.chans.set d { ch with
              state := .held, evaluation := .none, armed := .due false true } } k.tb))
    ∧ ((∀ x : ChanId, x ≠ c → ∀ w, p.chans[x].evaluation ≠ .onMark c w) → p.closeStep k before = p.grant k.tb)

/-- R141, R148, R149: at its deadline a command that waits on a channel forces the active step to its HALTED end, with
FORCED in the STEP_DONE, and completes with report HALTED; where instead a FLUSH waits for a slot, the command
completes with DEADLINE and the FLUSH's fields, and the FLUSH stays pending. That a HOLD step which started in this tick
leaves the drives its start set (log entry 20), the result words of DEADLINE (log entry 26), and that a CLOSED channel
keeps every field R22 does not name (log entry 31) are read by inference; that the tick of the end does not count in the
counter is the model's choice (log entry 42). -/
def Obligations.DeadlineEndsTheWait : Prop :=
  ∀ (s : State) (c : ChanId), let p := s.part; let ch := p.chans[c]
    p.admin.unit = .waiting → p.admin.deadline = some s.tb → p.admin.waitingOn = .channel c →
    (∀ (h : HaltRequest) (e : Machine.Step) (q : RingId), ch.Law → ch.halt = some h → ch.active = some e →
        ch.bound = some q →
      exec .deadlineExpiry s = .next (s.withPart (Part.closeStep (Part.complete
        { p with
          admin := { p.admin with deadline := none }
          chans := p.chans.set c (haltedChannel ch h.close).afterAdmission
          lines := linesAfterHalt p.lines c ch e.record h.close
          pool := p.poolWith c q p.pool.slotForReport s.tb (haltedBody ch e h.flushed h.firstTag true)
          marks := if e.record.markEnd then p.marks.set c true else p.marks } .ok
        ⟨1, BitVec.ofNat 32 h.flushed, BitVec.ofNat 32 ch.fetchIndex, 0⟩) s.clock p.marks)))
    ∧ (∀ (d : Draft) (n : Nat) (tag : BitVec 16) (sqHead : Nat) (fetchError : Bool), ch.halt = none →
        ch.pendingReport = some d → d.body = .flush n tag sqHead fetchError →
      exec .deadlineExpiry s = .next (s.granted (Part.complete
        { p with admin := { p.admin with deadline := none } } .deadline
        ⟨2, BitVec.ofNat 32 n, BitVec.ofNat 32 sqHead, 0⟩)))

/-- R15 to R18, R20, R21, R28, R32, R34, R149: CYCLE_END of an output step that completes a cycle. The step goes on
with its counter and phase at 0; or it has done its count and ends DONE with nothing behind it; or it ends, DONE or,
where continuous, SUPERSEDED, with a GOOD step behind it, which proceeds at the same event: a CHAIN step starts, or is
HELD where the STEP_DONE took the reserved slot (R11, R12); an AT_TIME or ON_MARK step waits, starts LATE, or is
removed with LATE_SKIPPED, and a valid CHAIN step behind it then proceeds (R77, R78, R81); and the steps behind a step
that starts are armed and validated in their turn (R8, R10, R14). R13: a step that starts with a valid IMMEDIATE step
behind it is PREEMPTED at the same event, having run for no ticks, with value 0. Or it ends HALTED under a halt
request and the command that waits on the channel completes. That a CLOSED channel keeps every field R22 does not name
is read by inference (log entry 31); that the counter is 0 from this event on (log entry 36) is the model's choice.
That a report removed behind an active step has UNDERRUN clear is read by inference (log entry 18). -/
def Obligations.CycleEndDecidesTheStep : Prop :=
  ∀ (s : State) (c : ChanId) (e : Machine.Step) (q : RingId), let p := s.part; let ch := p.chans[c]
    let r := e.record
    let n := if ch.cycleCount < 4294967295 then ch.cycleCount + 1 else ch.cycleCount
    let u : Channel := { ch with cycleCount := n, oddCycle := !ch.oddCycle }
    let p1 : Part := { p with
      chans := p.chans.set c u
      marks := if r.markCycle then p.marks.set c true else p.marks }
    ch.state = .active → ch.active = some e → ch.running = true → ch.counted = false → ch.bound = some q →
    r.isOutput = true → ch.phase + 1 = 2 ^ r.prescale.toNat → ch.counter = r.top.toNat →
    (ch.halt = none →
        (r.count = 0 ∧ ch.armed.isGood = false ∨ r.count ≠ 0 ∧ n ≠ r.count.toNat) →
      exec (.cycleEnd c) s = .next (s.withPart (Part.closeStep
        { p1 with chans := p.chans.set c { u with counter := 0, phase := 0, counted := true } } s.clock p.marks)))
    ∧ (ch.halt = none → r.count ≠ 0 → n = r.count.toNat → ch.queue = [] → ch.fetchFault = false →
      exec (.cycleEnd c) s = .next (s.withPart (Part.closeStep
        (p1.stepEnded c q s.tb e .done) s.clock p.marks)))
    ∧ (∀ (e2 : Machine.Step) (behind : List Machine.Step), ch.halt = none → r.count = 0 ∨ n = r.count.toNat →
        ch.queue = e2 :: behind → ch.window.length ≤ 4 → ch.armed = .good → ch.evaluation = .none →
        let status : DoneStatus := if r.count = 0 then .superseded else .done
        (p.pool.hasShared = true → p.pool.reservedBusy c = false) →
        (e2.runsOn behind → (e2.record.isSkipped s.tb → behind = [] ∧ ch.fetchFault = false) →
          exec (.cycleEnd c) s = .next (s.withPart (Part.closeStep
            (p1.stepFollowed c q s.tb e status e2 behind) s.clock p.marks)))
        ∧ (∀ (e3 : Machine.Step) (rest : List Machine.Step), e2.record.isSkipped s.tb → behind = e3 :: rest →
            p.pool.hasShared = true → validate ch (p.wide c) e3.record = none → e3.record.isOutput = true →
            e3.record.start = 0 ∨ e3.record.start = 1 → e3.runsOn rest →
          exec (.cycleEnd c) s = .next (s.withPart (Part.closeStep
            ((p1.stepFollowed c q s.tb e status e2 behind).chainProceeds c q s.tb e3 rest) s.clock p.marks)))
        ∧ (∀ e3 : Machine.Step, behind = [e3] → e2.record.start = 0 → e2.record.isOutput = true →
            e3.record.start = 1 → e3.record.isOutput = true → validate ch (p.wide c) e3.record = none →
            let p2 := p1.stepHandsOver c q s.tb e status e2 (behind := [e3])
            p.pool.hasShared = true → p2.pool.hasShared = true →
          exec (.cycleEnd c) s = .next (s.withPart (Part.closeStep
            (p2.stepHandsOver c q s.tb e2 .preempted e3) s.clock p.marks))))
    ∧ (∀ h : HaltRequest, ch.Law → ch.halt = some h →
      exec (.cycleEnd c) s = .next (s.withPart (Part.closeStep
        (p1.stepHalted c q s.tb e h false) s.clock p.marks)))

/-- R15, R43, R45, R47, R49, R52, R53: CAPTURE_EDGE of an interval step. An unarmed step arms with its counter at 0;
an armed one takes an OK capture of the counter, which clears the strikes, is counted and summed up, and is offered
unless the step is quiet; the step then goes on, or ends DONE at its count with nothing behind it. R18, R21, R47,
R149: or it ends, DONE or, where continuous, SUPERSEDED, with a GOOD step behind it, which proceeds at the same event:
it starts, or is HELD where the STEP_DONE took the reserved slot (R11, R12), or as AT_TIME or ON_MARK step waits,
starts LATE or is removed (R77, R78, R81); the steps behind a step that starts are armed in their turn (R8, R10, R14);
or it ends HALTED under a halt request. That the counter of a step which ends at a capture is 0 is read by inference
(log entry 17), and so is what a CLOSED channel keeps (log entry 31). That a report removed behind an active step has
UNDERRUN clear is read by inference (log entry 18). -/
def Obligations.CaptureEdgeTakesACapture : Prop :=
  (∀ (s : State) (c : ChanId) (e : Machine.Step) (q : RingId), let p := s.part; let ch := p.chans[c]
    let r := e.record; let v := ch.counter
    let n := if ch.okCount < 4294967295 then ch.okCount + 1 else ch.okCount
    let u0 : Channel := { ch with
      counter := 0, phase := 0, edgeTaken := true, strikes := 0, okCount := n
      acc := if r.summary then ch.acc.enter v else ch.acc }
    let u := if r.quiet then u0 else u0.afterCapture p.pool.hasShared
    let p1 : Part := { p with
      chans := p.chans.set c u
      pool := if r.quiet then p.pool else p.poolAfterCapture c q s.tb (.capture r.tag false false v) }
    ch.state = .active → ch.active = some e → ch.running = true → ch.edgeTaken = false → ch.bound = some q →
    r.isInterval = true → ch.intervalEdge s.clock r = true →
    (ch.intervalArmed = false → exec (.captureEdge c) s = .next (s.granted
      { p with
        chans := p.chans.set c
          { ch with counter := 0, phase := 0, intervalArmed := true, edgeTaken := true } }))
    ∧ (ch.intervalArmed = true → ch.halt = none →
        (r.count = 0 ∧ ch.armed.isGood = false ∨ r.count ≠ 0 ∧ n ≠ r.count.toNat) →
      exec (.captureEdge c) s = .next (s.withPart (Part.closeStep
        { p1 with marks := if r.markCycle then p.marks.set c true else p.marks } s.clock p.marks)))
    ∧ (ch.intervalArmed = true → ch.halt = none → r.count ≠ 0 → n = r.count.toNat → ch.queue = [] →
        ch.fetchFault = false →
      exec (.captureEdge c) s = .next (s.withPart (Part.closeStep
        { p1 with
          chans := p.chans.set c (endedChannel u).afterAdmission
          pool := p1.poolWith c q p1.pool.slotForReport s.tb (endedBody u e .done)
          marks := if r.markCycle || r.markEnd then p.marks.set c true else p.marks } s.clock p.marks)))
    ∧ (ch.intervalArmed = true → ∀ (e2 : Machine.Step) (behind : List Machine.Step), ch.halt = none →
        r.count = 0 ∨ n = r.count.toNat → ch.queue = e2 :: behind → ch.window.length ≤ 4 → ch.armed = .good →
        ch.evaluation = .none → e2.runsOn behind →
        (e2.record.isSkipped s.tb → behind = [] ∧ ch.fetchFault = false) →
        (p1.pool.hasShared = true → p1.pool.reservedBusy c = false) →
      exec (.captureEdge c) s = .next (s.withPart (Part.closeStep
        (Part.stepFollowed { p1 with marks := if r.markCycle then p.marks.set c true else p.marks } c q s.tb e
          (if r.count = 0 then .superseded else .done) e2 behind) s.clock p.marks)))
    ∧ (ch.intervalArmed = true → ∀ h : HaltRequest, ch.Law → ch.halt = some h →
      exec (.captureEdge c) s = .next (s.withPart (Part.closeStep
        (Part.stepHalted { p1 with marks := if r.markCycle then p.marks.set c true else p.marks } c q s.tb e h
          false) s.clock p.marks))))
    ∧ (∀ (a : Stats) (v : Nat), a.enter v =
        if a.n < 4294967295 then
          { min := if a.n = 0 then v else min a.min v, max := if a.n = 0 then v else max a.max v
            sum := a.sum + v, n := a.n + 1 }
        else a)

/-- R46, R47, R49, R55: OVERRANGE of an interval step whose counter reaches top: an overrange capture carrying top is
offered whether or not the step is quiet, the step disarms and counts a strike; it goes on with its counter at 0, or
ends NO_SIGNAL at its strike limit with nothing behind it (its counter then keeps top, the model's reading of log
entry 17). R18, R21, R47, R149: or it ends, NO_SIGNAL or, where continuous, SUPERSEDED, with a GOOD step behind it,
which proceeds at the same event: it starts, or is HELD where the STEP_DONE took the reserved slot (R11, R12), or as
AT_TIME or ON_MARK step waits, starts LATE or is removed (R77, R78, R81); the steps behind a step that starts are
armed in their turn (R8, R10, R14); or it ends HALTED under a halt request. What a CLOSED channel keeps is read by
inference (log entry 31). That a report removed behind an active step has UNDERRUN clear is read by inference (log
entry 18). -/
def Obligations.OverrangeCountsAStrike : Prop :=
  ∀ (s : State) (c : ChanId) (e : Machine.Step) (q : RingId), let p := s.part; let ch := p.chans[c]
    let r := e.record
    let n := if ch.strikes < 15 then ch.strikes + 1 else ch.strikes
    let u : Channel := Channel.afterCapture
      { ch with counter := r.top.toNat, phase := 0, intervalArmed := false, strikes := n } p.pool.hasShared
    let p1 : Part := { p with
      chans := p.chans.set c u
      pool := p.poolAfterCapture c q s.tb (.capture r.tag true (!ch.intervalArmed) r.top.toNat) }
    ch.state = .active → ch.active = some e → ch.running = true → ch.counted = false → ch.bound = some q →
    r.isInterval = true → ch.gated s.clock r = true →
    ch.edgeTaken = true ∨ ch.intervalEdge s.clock r = false →
    ch.phase + 1 = 2 ^ r.prescale.toNat → ch.counter + 1 = r.top.toNat →
    (ch.halt = none → r.strikes = 0 ∨ n ≠ r.strikes.toNat → (r.count = 0 → ch.armed.isGood = false) →
      exec (.overrange c) s = .next (s.withPart (Part.closeStep
        { p1 with
          chans := p.chans.set c { u with counter := 0, counted := true }
          marks := if r.markCycle then p.marks.set c true else p.marks } s.clock p.marks)))
    ∧ (ch.halt = none → r.strikes ≠ 0 → n = r.strikes.toNat → ch.queue = [] → ch.fetchFault = false →
      exec (.overrange c) s = .next (s.withPart (Part.closeStep
        { p1 with
          chans := p.chans.set c (endedChannel u).afterAdmission
          pool := p1.poolWith c q p1.pool.slotForReport s.tb (endedBody u e .noSignal)
          marks := if r.markCycle || r.markEnd then p.marks.set c true else p.marks } s.clock p.marks)))
    ∧ (∀ (e2 : Machine.Step) (behind : List Machine.Step), ch.halt = none →
        r.count = 0 ∨ r.strikes ≠ 0 ∧ n = r.strikes.toNat → ch.queue = e2 :: behind → ch.window.length ≤ 4 →
        ch.armed = .good → ch.evaluation = .none → e2.runsOn behind →
        (e2.record.isSkipped s.tb → behind = [] ∧ ch.fetchFault = false) →
        (p1.pool.hasShared = true → p1.pool.reservedBusy c = false) →
      exec (.overrange c) s = .next (s.withPart (Part.closeStep
        (Part.stepFollowed { p1 with marks := if r.markCycle then p.marks.set c true else p.marks } c q s.tb e
          (if r.strikes ≠ 0 ∧ n = r.strikes.toNat then .noSignal else .superseded) e2 behind) s.clock p.marks)))
    ∧ (∀ h : HaltRequest, ch.Law → ch.halt = some h →
      exec (.overrange c) s = .next (s.withPart (Part.closeStep
        (Part.stepHalted { p1 with marks := if r.markCycle then p.marks.set c true else p.marks } c q s.tb e h
          false) s.clock p.marks)))

/-- R60, R61: WINDOW_EDGE counts an edge of a COUNT step up to the greatest value of the channel's width; WINDOW_END
takes an OK capture of the count, or at the greatest value an overrange capture and a strike; the next window begins
with the counter, the phase and the edge count at 0. R15, R18, R21, R47, R149: or the step ends DONE at its count, or
NO_SIGNAL at its strike limit, with nothing behind it; or it ends, with that status or, where continuous, SUPERSEDED,
with a GOOD step behind it, which proceeds at the same event: it starts, or is HELD where the STEP_DONE took the
reserved slot (R11, R12), or as AT_TIME or ON_MARK step waits, starts LATE or is removed (R77, R78, R81); the steps
behind a step that starts are armed in their turn (R8, R10, R14); or it ends HALTED under a halt request. That the
counter of a step which ends here keeps top is read by inference (log entry 17), and so is what a CLOSED channel keeps
(log entry 31). That a report removed behind an active step has UNDERRUN clear is read by inference (log entry 18). -/
def Obligations.CountWindowsCountEdges : Prop :=
  ∀ (s : State) (c : ChanId) (e : Machine.Step) (q : RingId), let p := s.part; let ch := p.chans[c]
    let r := e.record; let v := ch.edgeCount
    let greatest := if p.wide c then 4294967295 else 65535
    let n := if ch.okCount < 4294967295 then ch.okCount + 1 else ch.okCount
    let m := if ch.strikes < 15 then ch.strikes + 1 else ch.strikes
    let fresh : Channel := { ch with counter := 0, phase := 0, edgeCount := 0, counted := true }
    let ok : Channel := { fresh with
      strikes := 0, okCount := n, acc := if r.summary then ch.acc.enter v else ch.acc }
    let marks := if r.markCycle then p.marks.set c true else p.marks
    ch.state = .active → ch.active = some e → ch.running = true → ch.bound = some q →
    r.kindOf = some .count →
    (ch.edgeTaken = false → s.clock.edgeOf r ch.bLine = true → exec (.windowEdge c) s = .next (s.granted
      { p with
        chans := p.chans.set c
          { ch with edgeCount := if v < greatest then v + 1 else v, edgeTaken := true } }))
    ∧ (ch.edgeTaken = true ∨ s.clock.edgeOf r ch.bLine = false → ch.counted = false →
        ch.phase + 1 = 2 ^ r.prescale.toNat → ch.counter = r.top.toNat → ch.halt = none →
        (r.count = 0 → ch.armed.isGood = false) →
      (v < greatest → r.count = 0 ∨ n ≠ r.count.toNat →
        exec (.windowEnd c) s = .next (s.withPart (Part.closeStep
          { p with
            chans := p.chans.set c (if r.quiet then ok else ok.afterCapture p.pool.hasShared)
            pool := if r.quiet then p.pool
              else p.poolAfterCapture c q s.tb (.capture r.tag false false v)
            marks := marks } s.clock p.marks)))
      ∧ (greatest ≤ v → r.strikes = 0 ∨ m ≠ r.strikes.toNat →
        exec (.windowEnd c) s = .next (s.withPart (Part.closeStep
          { p with
            chans := p.chans.set c (Channel.afterCapture { fresh with strikes := m } p.pool.hasShared)
            pool := p.poolAfterCapture c q s.tb (.capture r.tag true false v)
            marks := marks } s.clock p.marks))))
    ∧ (let taken : Channel := if v < greatest then
          { ch with strikes := 0, okCount := n, acc := if r.summary then ch.acc.enter v else ch.acc }
        else { ch with strikes := m }
       let silent := v < greatest ∧ r.quiet = true
       let p1 : Part := { p with
         chans := p.chans.set c (if silent then taken else taken.afterCapture p.pool.hasShared)
         pool := if silent then p.pool
           else p.poolAfterCapture c q s.tb (.capture r.tag (decide (greatest ≤ v)) false v)
         marks := marks }
       let own := v < greatest ∧ r.count ≠ 0 ∧ n = r.count.toNat
         ∨ greatest ≤ v ∧ r.strikes ≠ 0 ∧ m = r.strikes.toNat
       let status : DoneStatus :=
         if ¬ own then .superseded else if v < greatest then .done else .noSignal
       ch.edgeTaken = true ∨ s.clock.edgeOf r ch.bLine = false → ch.counted = false →
       ch.phase + 1 = 2 ^ r.prescale.toNat → ch.counter = r.top.toNat →
       (ch.halt = none → own → ch.queue = [] → ch.fetchFault = false →
         exec (.windowEnd c) s = .next (s.withPart (Part.closeStep
           (p1.stepEnded c q s.tb e status) s.clock p.marks)))
       ∧ (∀ (e2 : Machine.Step) (behind : List Machine.Step), ch.halt = none → r.count = 0 ∨ own →
           ch.queue = e2 :: behind → ch.window.length ≤ 4 → ch.armed = .good → ch.evaluation = .none →
           e2.runsOn behind → (e2.record.isSkipped s.tb → behind = [] ∧ ch.fetchFault = false) →
           (p1.pool.hasShared = true → p1.pool.reservedBusy c = false) →
         exec (.windowEnd c) s = .next (s.withPart (Part.closeStep
           (p1.stepFollowed c q s.tb e status e2 behind) s.clock p.marks)))
       ∧ (∀ h : HaltRequest, ch.Law → ch.halt = some h →
         exec (.windowEnd c) s = .next (s.withPart (Part.closeStep
           (p1.stepHalted c q s.tb e h false) s.clock p.marks))))

/-- R62, R63, R64: COUNT_STEP of a POSITION step moves the position by one, DOWN where B rises with A high before the
edge or falls with A low, modulo the channel's width; a wrap offers a WRAP, an arrival at a threshold a THRESHOLD (at
thr_a where the two are equal), which is counted, emits CYCLE, and ends the step DONE at its count, with nothing
behind it (R15), or with a GOOD step behind it, which proceeds at the same event: it starts, or is HELD where the
STEP_DONE took the reserved slot (R11, R12), or as AT_TIME or ON_MARK step waits, starts LATE or is removed (R77, R78,
R81); the steps behind a step that starts are armed in their turn (R8, R10, R14). That a report removed behind an
active step has UNDERRUN clear is read by inference (log entry 18). -/
def Obligations.CountStepMovesThePosition : Prop :=
  ∀ (s : State) (c : ChanId) (e : Machine.Step) (q : RingId), let p := s.part; let ch := p.chans[c]
    let r := e.record; let k := s.clock
    let p1 := p.edgeCounted k c q r
    let ends := p1.chans[c].thresholdCount = ch.thresholdCount + 1 ∧ r.count ≠ 0
      ∧ ch.thresholdCount + 1 = r.count.toNat
    ch.state = .active → ch.active = some e → ch.running = true → ch.edgeTaken = false →
    ch.bound = some q → r.kindOf = some .position → k.rises ch.bLine = true ∨ k.falls ch.bLine = true →
    (¬ ends → exec (.countStep c) s = .next (s.withPart (p1.closeStep k p.marks)))
    ∧ (ends → ch.queue = [] → ch.halt = none → ch.fetchFault = false →
      exec (.countStep c) s = .next (s.withPart (Part.closeStep (p1.stepEnded c q s.tb e .done) k p.marks)))
    ∧ (∀ (e2 : Machine.Step) (behind : List Machine.Step), ends → ch.queue = e2 :: behind → ch.window.length ≤ 4 →
        ch.armed = .good → ch.evaluation = .none → ch.halt = none → e2.runsOn behind →
        (e2.record.isSkipped s.tb → behind = [] ∧ ch.fetchFault = false) →
        (p1.pool.hasShared = true → p1.pool.reservedBusy c = false) →
      exec (.countStep c) s = .next (s.withPart (Part.closeStep
        (p1.stepFollowed c q s.tb e .done e2 behind) k p.marks)))

/-- R27, R44, R68, R70, R71, R73, R74, R84, R87, R92: TICK in a tick with every event taken: TB advances, every active
step's counter and phase count the ended tick, the lines of each active output step take the next tick's drives, the
mark bus falls silent, the next tick's lines are sampled, and the interrupt line takes the level of the condition that
the tick left (R131; that it does so at this event is the model's choice, log entry 23); nothing else changes. TICK in a
tick with events that no command has taken takes them first, which is the model's choice (log entry 13), each as its own
command does, in an order that it leaves open (log entry 1): it takes one that is due, and goes on as TICK does after
that command; and it leaves none due. -/
def Obligations.TickAdvancesTheBlocks : Prop :=
  (∀ (s : State) (pins : BitVec 16), s.part.ClaimLaw → s.part.AdminLaw →
    let k := s.clock; let left := Part.takeDue k dueLimit s.part
    left.due k = [] ∧ exec (.tick pins) s = exec (.tick pins) (s.withPart left)
      ∧ (s.part.due k ≠ [] → ∃ e ∈ s.part.due k, ∃ (n : Nat) (t : State), n ≤ 1
          ∧ exec e.command (s.withPart { s.part with choices := s.part.choices + n }) = .next t
          ∧ exec (.tick pins) s = exec (.tick pins) t))
  ∧ ∀ (s : State) (pins : BitVec 16), let p := s.part
    p.due s.clock = [] →
    ∃ (chans : Vector Channel 8) (lines : Vector LineEntry 16),
      exec (.tick pins) s = .next { s with
        tb := s.tb + 1
        pins := pins
        sample := Vector.ofFn fun i : Fin 16 => lines[i].shows (pins.getLsbD i)
        previous := some s.sample
        irq := p.interrupt
        part := { p with chans := chans, lines := lines, marks := Vector.replicate 8 false } }
      ∧ (∀ c : ChanId, let ch := p.chans[c]
          (ch.active = none →
            chans[c] = { ch with
              running := false, counted := false, edgeTaken := false })
          ∧ (∀ e, ch.active = some e →
            let moves := ch.running = true ∧ ch.counted = false
              ∧ (e.record.isOutput = true ∨ e.record.kindOf = some .count ∨ ch.gated s.clock e.record = true)
            let last := 2 ^ e.record.prescale.toNat ≤ ch.phase + 1
            chans[c] = { ch with
              phase := if moves then (if last then 0 else ch.phase + 1) else ch.phase
              counter := if moves ∧ last then ch.counter + 1 else ch.counter
              running := true, counted := false, edgeTaken := false }))
      ∧ (∀ i : LineId, lines[i].park = p.lines[i].park ∧ lines[i].owner = p.lines[i].owner
          ∧ lines[i].listeners = p.lines[i].listeners
          ∧ ((∀ (c : ChanId) (e : Machine.Step), chans[c].active = some e → e.record.isOutput = true →
                chans[c].bLine ≠ some i ∧ chans[c].aLine ≠ some i) → lines[i].drive = p.lines[i].drive)
          ∧ (∀ (c : ChanId) (e : Machine.Step), chans[c].active = some e → e.record.isOutput = true →
              (∀ (d : ChanId) (x : Machine.Step), d ≠ c → chans[d].active = some x → x.record.isOutput = true →
                chans[d].bLine ≠ some i ∧ chans[d].aLine ≠ some i) →
              let b := e.record.bLevel chans[c].counter chans[c].oddCycle
              (chans[c].bLine = some i → chans[c].aLine ≠ some i → lines[i].drive = .ofLevel b)
              ∧ (chans[c].aLine = some i →
                  lines[i].drive = e.record.aDrive chans[c].counter chans[c].cycleCount b)))

/-- An event of time or of the lines that is not due in the current tick changes nothing (the model's choice, log
entry 12). -/
def Obligations.EventsNotDueChangeNothing : Prop :=
  ∀ (s : State) (c : ChanId), let ch := s.part.chans[c]; let k := s.clock
    ((∀ e, ch.active = some e → ch.running = true → ch.edgeTaken = false → e.record.isInterval = true →
        ch.intervalEdge k e.record = false) → exec (.captureEdge c) s = .next s)
    ∧ ((∀ e, ch.active = some e → ch.running = true → ch.edgeTaken = false → e.record.kindOf = some .count →
        k.edgeOf e.record ch.bLine = false) → exec (.windowEdge c) s = .next s)
    ∧ ((∀ e, ch.active = some e → ch.running = true → ch.edgeTaken = false →
        e.record.kindOf = some .position → k.rises ch.bLine = false ∧ k.falls ch.bLine = false) →
      exec (.countStep c) s = .next s)
    ∧ ((∀ e, ch.active = some e → ch.running = true → e.record.isOutput = true →
        ch.counter ≠ e.record.top.toNat ∨ ch.phase + 1 ≠ 2 ^ e.record.prescale.toNat) →
      exec (.cycleEnd c) s = .next s)
    ∧ ((∀ e, ch.active = some e → ch.running = true → e.record.isInterval = true →
        ch.gated k e.record = false ∨ ch.counter + 1 ≠ e.record.top.toNat
          ∨ ch.phase + 1 ≠ 2 ^ e.record.prescale.toNat) → exec (.overrange c) s = .next s)
    ∧ ((∀ e, ch.active = some e → ch.running = true → e.record.kindOf = some .count →
        ch.counter ≠ e.record.top.toNat ∨ ch.phase + 1 ≠ 2 ^ e.record.prescale.toNat) →
      exec (.windowEnd c) s = .next s)
    ∧ (ch.evaluation ≠ .atTime (s.tb + 1) → exec (.atTimeSatisfied c) s = .next s)
    ∧ ((∀ source, ch.evaluation ≠ .onMark source (some s.tb)) → exec (.markTimeout c) s = .next s)
    ∧ (s.part.admin.unit ≠ .waiting ∨ s.part.admin.deadline ≠ some s.tb → exec .deadlineExpiry s = .next s)

/-! ### Laws that every command keeps -/

/-- The machine right after reset keeps every law below. -/
def Obligations.LawsHoldAtReset : Prop :=
  State.reset.part.ClaimLaw ∧ State.reset.part.WindowLaw ∧ State.reset.part.StagingLaw
    ∧ State.reset.part.RingLaw ∧ State.reset.part.AcqLaw ∧ State.reset.part.AdminLaw ∧ State.reset.part.CounterLaw

/-- R3, R4, R67, R77, R85, R89, R93, R96: every command, from every state in which channels take their states from
their windows, no POSITION step holds a halt request, joined pairs have SUBORDINATE odd channels and lines have the
owners that claim them, leaves such a state. R27, R43, R46, R60, R73: and where moreover every running step's counter lies
within 0 to top, an interval step's below top, and its prescaler phase below 2^p, every command leaves a state in which it
does, the admin unit's law given (O58). -/
def Obligations.EveryCommandKeepsTheClaimLaw : Prop :=
  (∀ (s t : State) (i : Instr), s.part.ClaimLaw → exec i s = .next t → t.part.ClaimLaw)
    ∧ (∀ (s t : State) (i : Instr), s.part.ClaimLaw → s.part.AdminLaw → s.part.CounterLaw → exec i s = .next t →
        t.part.CounterLaw)

/-- R4, R5, R20, R26: every command keeps each window within four steps, the steps behind the active one those of the
ring slots just before the fetch index, in their order, and grants a step read only with room for its record. So no slot
index appears twice among the steps behind the active one, and a window without a repeated index stands in the order of
its slots. R4 says that no index appears twice in the whole window; every command keeps that, but for the return of a
record from the very slot of the step that the channel runs, which R5 and R160 let it ask for and R4 does not: that the
model lets it is its choice (log entry 32). -/
def Obligations.EveryCommandKeepsTheWindowLaw : Prop :=
  (∀ (s t : State) (i : Instr), s.part.WindowLaw → exec i s = .next t → t.part.WindowLaw)
    ∧ (∀ ch : Channel, ch.OrderLaw → (ch.queue.map Machine.Step.index).Nodup
        ∧ (ch.distinctSlots → ch.window.Pairwise fun a b => ch.age b < ch.age a))
    ∧ (∀ (s t : State) (i : Instr) (c : ChanId), s.part.WindowLaw → exec i s = .next t →
        s.part.chans[c].distinctSlots →
        (∀ w a, i = .stepReadReturn w → s.part.port.carries (.stepRead c) → s.part.chans[c].active = some a →
          a.index ≠ s.part.chans[c].fetchIndex) →
        t.part.chans[c].distinctSlots)

/-- R12, R23, R105, R106: every command keeps at most 24 entries in shared slots and one final report in each
reserved slot, whose channel then has no active step; the pool so holds at most 32 entries. -/
def Obligations.EveryCommandKeepsTheStagingLaw : Prop :=
  (∀ (s t : State) (i : Instr), s.part.StagingLaw → exec i s = .next t → t.part.StagingLaw)
    ∧ (∀ p : Part, p.StagingLaw → p.pool.size ≤ 32)

/-- R111, R112, R114, R133, R138: every command keeps each completion ring's indices below its size and its
outstanding count the forward distance from host head to write index, and a write has room for the slot it writes;
and the same of the ACQ. R134, R138, R141, R165: every command keeps the admin unit's law: a deadline timer runs only for
a command that waits on a channel, a command waits only in RUNNING, and the unit and the device are in the state that the
admin transaction on the port needs. -/
def Obligations.EveryCommandKeepsTheRingLaws : Prop :=
  (∀ (s t : State) (i : Instr), s.part.RingLaw → exec i s = .next t → t.part.RingLaw)
    ∧ (∀ (s t : State) (i : Instr), s.part.AcqLaw → exec i s = .next t → t.part.AcqLaw)
    ∧ (∀ (s t : State) (i : Instr), s.part.AdminLaw → exec i s = .next t → t.part.AdminLaw)

/-- R68, R69, R91, R93, R164, R169: what only its own commands and the resets change. TB, the samples and the pins:
TICK; the TBHI latch: TBLO_READ; CFGBASE: CFGBASE_WRITE, and not RESET; the park levels: LINE_PARK; the pair table:
PAIR_JOIN and PAIR_SPLIT. That the data of the last TBLO read is kept by every other command is the model's choice
(log entry 6). -/
def Obligations.OnlyItsCommandsMoveEachRegister : Prop :=
  ∀ (s t : State) (i : Instr), exec i s = .next t → (∀ pins, i ≠ .hardReset pins) →
    ((∀ pins, i ≠ .tick pins) → t.tb = s.tb ∧ t.pins = s.pins ∧ t.sample = s.sample ∧ t.previous = s.previous)
    ∧ (i ≠ .tbloRead → t.tbhi = s.tbhi ∧ t.readData = s.readData)
    ∧ ((∀ v, i ≠ .cfgbaseWrite v) → t.part.device.cfgBase = s.part.device.cfgBase)
    ∧ (i ≠ .reset → (∀ r, i ≠ .linePark r) → ∀ l : LineId, t.part.lines[l].park = s.part.lines[l].park)
    ∧ (i ≠ .reset → (∀ r, i ≠ .pairJoin r) → (∀ r, i ≠ .pairSplit r) → t.part.pairs = s.part.pairs)

/-- R109, R110: but for the resets, every command keeps the entries of a completion ring's list in their order and
unchanged, and adds entries at its end alone; only ENTRY_WRITE_DONE takes an entry from it, one, and that from its
head. -/
def Obligations.ListsAreServedHeadFirst : Prop :=
  ∀ (s t : State) (i : Instr) (q : RingId), exec i s = .next t → (∀ pins, i ≠ .hardReset pins) → i ≠ .reset →
    ∃ (k : Nat) (new : List Staged), k ≤ 1 ∧ (i ≠ .entryWriteDone → k = 0)
      ∧ t.part.pool.lists[q] = s.part.pool.lists[q].drop k ++ new
end

