-- ==== Sys2Proof/Laws/State.lean ====
section
/-! SUPPORT. What each named update of the state leaves and sets: one lemma per field per update. -/

namespace Sys2Proof.Machine

/-! ### State.withPart -/

@[simp] theorem State.withPart_tb (s : State) (p : Part) : (s.withPart p).tb = s.tb := rfl
@[simp] theorem State.withPart_tbhi (s : State) (p : Part) : (s.withPart p).tbhi = s.tbhi := rfl
@[simp] theorem State.withPart_pins (s : State) (p : Part) : (s.withPart p).pins = s.pins := rfl
@[simp] theorem State.withPart_sample (s : State) (p : Part) : (s.withPart p).sample = s.sample := rfl
@[simp] theorem State.withPart_previous (s : State) (p : Part) : (s.withPart p).previous = s.previous := rfl
@[simp] theorem State.withPart_irq (s : State) (p : Part) : (s.withPart p).irq = s.irq := rfl
@[simp] theorem State.withPart_readData (s : State) (p : Part) : (s.withPart p).readData = s.readData := rfl
@[simp] theorem State.withPart_part (s : State) (p : Part) : (s.withPart p).part = p := rfl
@[simp] theorem State.withPart_pending (s : State) (p : Part) : (s.withPart p).pending = s.pending := rfl

/-! ### State.onPart -/

@[simp] theorem State.onPart_tb (s : State) (f : Clock → Part → Part) : (s.onPart f).tb = s.tb := rfl
@[simp] theorem State.onPart_tbhi (s : State) (f : Clock → Part → Part) : (s.onPart f).tbhi = s.tbhi := rfl
@[simp] theorem State.onPart_pins (s : State) (f : Clock → Part → Part) : (s.onPart f).pins = s.pins := rfl
@[simp] theorem State.onPart_sample (s : State) (f : Clock → Part → Part) : (s.onPart f).sample = s.sample := rfl
@[simp] theorem State.onPart_previous (s : State) (f : Clock → Part → Part) : (s.onPart f).previous = s.previous := rfl
@[simp] theorem State.onPart_irq (s : State) (f : Clock → Part → Part) : (s.onPart f).irq = s.irq := rfl
@[simp] theorem State.onPart_readData (s : State) (f : Clock → Part → Part) : (s.onPart f).readData = s.readData := rfl
@[simp] theorem State.onPart_part (s : State) (f : Clock → Part → Part) : (s.onPart f).part = f s.clock s.part := rfl
@[simp] theorem State.onPart_pending (s : State) (f : Clock → Part → Part) : (s.onPart f).pending = s.pending := rfl

/-! ### State.granted -/

@[simp] theorem State.granted_tb (s : State) (p : Part) : (s.granted p).tb = s.tb := rfl
@[simp] theorem State.granted_tbhi (s : State) (p : Part) : (s.granted p).tbhi = s.tbhi := rfl
@[simp] theorem State.granted_pins (s : State) (p : Part) : (s.granted p).pins = s.pins := rfl
@[simp] theorem State.granted_sample (s : State) (p : Part) : (s.granted p).sample = s.sample := rfl
@[simp] theorem State.granted_previous (s : State) (p : Part) : (s.granted p).previous = s.previous := rfl
@[simp] theorem State.granted_irq (s : State) (p : Part) : (s.granted p).irq = s.irq := rfl
@[simp] theorem State.granted_readData (s : State) (p : Part) : (s.granted p).readData = s.readData := rfl
@[simp] theorem State.granted_part (s : State) (p : Part) : (s.granted p).part = p.grant s.tb := rfl
@[simp] theorem State.granted_pending (s : State) (p : Part) : (s.granted p).pending = s.pending := rfl

/-! ### Part.setChan -/

@[simp] theorem Part.setChan_chans (p : Part) (c : ChanId) (ch : Channel) : (p.setChan c ch).chans = p.chans.set c ch := rfl
@[simp] theorem Part.setChan_lines (p : Part) (c : ChanId) (ch : Channel) : (p.setChan c ch).lines = p.lines := rfl
@[simp] theorem Part.setChan_pairs (p : Part) (c : ChanId) (ch : Channel) : (p.setChan c ch).pairs = p.pairs := rfl
@[simp] theorem Part.setChan_pool (p : Part) (c : ChanId) (ch : Channel) : (p.setChan c ch).pool = p.pool := rfl
@[simp] theorem Part.setChan_rings (p : Part) (c : ChanId) (ch : Channel) : (p.setChan c ch).rings = p.rings := rfl
@[simp] theorem Part.setChan_notices (p : Part) (c : ChanId) (ch : Channel) : (p.setChan c ch).notices = p.notices := rfl
@[simp] theorem Part.setChan_admin (p : Part) (c : ChanId) (ch : Channel) : (p.setChan c ch).admin = p.admin := rfl
@[simp] theorem Part.setChan_port (p : Part) (c : ChanId) (ch : Channel) : (p.setChan c ch).port = p.port := rfl
@[simp] theorem Part.setChan_device (p : Part) (c : ChanId) (ch : Channel) : (p.setChan c ch).device = p.device := rfl
@[simp] theorem Part.setChan_marks (p : Part) (c : ChanId) (ch : Channel) : (p.setChan c ch).marks = p.marks := rfl
@[simp] theorem Part.setChan_choices (p : Part) (c : ChanId) (ch : Channel) : (p.setChan c ch).choices = p.choices := rfl

/-! ### Part.setRing -/

@[simp] theorem Part.setRing_chans (p : Part) (q : RingId) (r : Ring) : (p.setRing q r).chans = p.chans := rfl
@[simp] theorem Part.setRing_lines (p : Part) (q : RingId) (r : Ring) : (p.setRing q r).lines = p.lines := rfl
@[simp] theorem Part.setRing_pairs (p : Part) (q : RingId) (r : Ring) : (p.setRing q r).pairs = p.pairs := rfl
@[simp] theorem Part.setRing_pool (p : Part) (q : RingId) (r : Ring) : (p.setRing q r).pool = p.pool := rfl
@[simp] theorem Part.setRing_rings (p : Part) (q : RingId) (r : Ring) : (p.setRing q r).rings = p.rings.set q r := rfl
@[simp] theorem Part.setRing_notices (p : Part) (q : RingId) (r : Ring) : (p.setRing q r).notices = p.notices := rfl
@[simp] theorem Part.setRing_admin (p : Part) (q : RingId) (r : Ring) : (p.setRing q r).admin = p.admin := rfl
@[simp] theorem Part.setRing_port (p : Part) (q : RingId) (r : Ring) : (p.setRing q r).port = p.port := rfl
@[simp] theorem Part.setRing_device (p : Part) (q : RingId) (r : Ring) : (p.setRing q r).device = p.device := rfl
@[simp] theorem Part.setRing_marks (p : Part) (q : RingId) (r : Ring) : (p.setRing q r).marks = p.marks := rfl
@[simp] theorem Part.setRing_choices (p : Part) (q : RingId) (r : Ring) : (p.setRing q r).choices = p.choices := rfl

/-! ### Part.setNotice -/

@[simp] theorem Part.setNotice_chans (p : Part) (i : NoticeId) (n : Notice) : (p.setNotice i n).chans = p.chans := rfl
@[simp] theorem Part.setNotice_lines (p : Part) (i : NoticeId) (n : Notice) : (p.setNotice i n).lines = p.lines := rfl
@[simp] theorem Part.setNotice_pairs (p : Part) (i : NoticeId) (n : Notice) : (p.setNotice i n).pairs = p.pairs := rfl
@[simp] theorem Part.setNotice_pool (p : Part) (i : NoticeId) (n : Notice) : (p.setNotice i n).pool = p.pool := rfl
@[simp] theorem Part.setNotice_rings (p : Part) (i : NoticeId) (n : Notice) : (p.setNotice i n).rings = p.rings := rfl
@[simp] theorem Part.setNotice_notices (p : Part) (i : NoticeId) (n : Notice) : (p.setNotice i n).notices = p.notices.set i n := rfl
@[simp] theorem Part.setNotice_admin (p : Part) (i : NoticeId) (n : Notice) : (p.setNotice i n).admin = p.admin := rfl
@[simp] theorem Part.setNotice_port (p : Part) (i : NoticeId) (n : Notice) : (p.setNotice i n).port = p.port := rfl
@[simp] theorem Part.setNotice_device (p : Part) (i : NoticeId) (n : Notice) : (p.setNotice i n).device = p.device := rfl
@[simp] theorem Part.setNotice_marks (p : Part) (i : NoticeId) (n : Notice) : (p.setNotice i n).marks = p.marks := rfl
@[simp] theorem Part.setNotice_choices (p : Part) (i : NoticeId) (n : Notice) : (p.setNotice i n).choices = p.choices := rfl

/-! ### Part.endTransaction -/

@[simp] theorem Part.endTransaction_chans (p : Part) : (p.endTransaction).chans = p.chans := rfl
@[simp] theorem Part.endTransaction_lines (p : Part) : (p.endTransaction).lines = p.lines := rfl
@[simp] theorem Part.endTransaction_pairs (p : Part) : (p.endTransaction).pairs = p.pairs := rfl
@[simp] theorem Part.endTransaction_pool (p : Part) : (p.endTransaction).pool = p.pool := rfl
@[simp] theorem Part.endTransaction_rings (p : Part) : (p.endTransaction).rings = p.rings := rfl
@[simp] theorem Part.endTransaction_notices (p : Part) : (p.endTransaction).notices = p.notices := rfl
@[simp] theorem Part.endTransaction_admin (p : Part) : (p.endTransaction).admin = p.admin := rfl
@[simp] theorem Part.endTransaction_port (p : Part) : (p.endTransaction).port = { p.port with current := none, discard := false } := rfl
@[simp] theorem Part.endTransaction_device (p : Part) : (p.endTransaction).device = p.device := rfl
@[simp] theorem Part.endTransaction_marks (p : Part) : (p.endTransaction).marks = p.marks := rfl
@[simp] theorem Part.endTransaction_choices (p : Part) : (p.endTransaction).choices = p.choices := rfl

/-! ### Part.report -/

@[simp] theorem Part.report_chans (p : Part) (i : NoticeId) (tb : Ticks) (urgent : Bool) : (p.report i tb urgent).chans = p.chans := rfl
@[simp] theorem Part.report_lines (p : Part) (i : NoticeId) (tb : Ticks) (urgent : Bool) : (p.report i tb urgent).lines = p.lines := rfl
@[simp] theorem Part.report_pairs (p : Part) (i : NoticeId) (tb : Ticks) (urgent : Bool) : (p.report i tb urgent).pairs = p.pairs := rfl
@[simp] theorem Part.report_pool (p : Part) (i : NoticeId) (tb : Ticks) (urgent : Bool) : (p.report i tb urgent).pool = p.pool := rfl
@[simp] theorem Part.report_rings (p : Part) (i : NoticeId) (tb : Ticks) (urgent : Bool) : (p.report i tb urgent).rings = p.rings := rfl
@[simp] theorem Part.report_notices (p : Part) (i : NoticeId) (tb : Ticks) (urgent : Bool) : (p.report i tb urgent).notices = p.notices.set i (p.notices[i].countEntry tb urgent) := rfl
@[simp] theorem Part.report_admin (p : Part) (i : NoticeId) (tb : Ticks) (urgent : Bool) : (p.report i tb urgent).admin = p.admin := rfl
@[simp] theorem Part.report_port (p : Part) (i : NoticeId) (tb : Ticks) (urgent : Bool) : (p.report i tb urgent).port = p.port := rfl
@[simp] theorem Part.report_device (p : Part) (i : NoticeId) (tb : Ticks) (urgent : Bool) : (p.report i tb urgent).device = p.device := rfl
@[simp] theorem Part.report_marks (p : Part) (i : NoticeId) (tb : Ticks) (urgent : Bool) : (p.report i tb urgent).marks = p.marks := rfl
@[simp] theorem Part.report_choices (p : Part) (i : NoticeId) (tb : Ticks) (urgent : Bool) : (p.report i tb urgent).choices = p.choices := rfl

/-! ### Part.take -/

@[simp] theorem Part.take_chans (p : Part) (opcode : BitVec 8) (r : CommandRecord) : (p.take opcode r).chans = p.chans := rfl
@[simp] theorem Part.take_lines (p : Part) (opcode : BitVec 8) (r : CommandRecord) : (p.take opcode r).lines = p.lines := rfl
@[simp] theorem Part.take_pairs (p : Part) (opcode : BitVec 8) (r : CommandRecord) : (p.take opcode r).pairs = p.pairs := rfl
@[simp] theorem Part.take_pool (p : Part) (opcode : BitVec 8) (r : CommandRecord) : (p.take opcode r).pool = p.pool := rfl
@[simp] theorem Part.take_rings (p : Part) (opcode : BitVec 8) (r : CommandRecord) : (p.take opcode r).rings = p.rings := rfl
@[simp] theorem Part.take_notices (p : Part) (opcode : BitVec 8) (r : CommandRecord) : (p.take opcode r).notices = p.notices := rfl
@[simp] theorem Part.take_admin (p : Part) (opcode : BitVec 8) (r : CommandRecord) : (p.take opcode r).admin = { p.admin with
      current := some { opcode := opcode, record := r, index := p.admin.fetchIndex }
      fetchIndex := bump p.admin.fetchIndex p.admin.ringSize
      unit := .executing } := rfl
@[simp] theorem Part.take_port (p : Part) (opcode : BitVec 8) (r : CommandRecord) : (p.take opcode r).port = p.port := rfl
@[simp] theorem Part.take_device (p : Part) (opcode : BitVec 8) (r : CommandRecord) : (p.take opcode r).device = p.device := rfl
@[simp] theorem Part.take_marks (p : Part) (opcode : BitVec 8) (r : CommandRecord) : (p.take opcode r).marks = p.marks := rfl
@[simp] theorem Part.take_choices (p : Part) (opcode : BitVec 8) (r : CommandRecord) : (p.take opcode r).choices = p.choices := rfl

/-! ### Part.withView -/

@[simp] theorem Part.withView_chans (p : Part) (c : ChanId) (u : UnitView) : (p.withView c u).chans = p.chans.set c u.ch := rfl
@[simp] theorem Part.withView_lines (p : Part) (c : ChanId) (u : UnitView) : (p.withView c u).lines = u.lines := rfl
@[simp] theorem Part.withView_pairs (p : Part) (c : ChanId) (u : UnitView) : (p.withView c u).pairs = p.pairs := rfl
@[simp] theorem Part.withView_pool (p : Part) (c : ChanId) (u : UnitView) : (p.withView c u).pool = u.pool := rfl
@[simp] theorem Part.withView_rings (p : Part) (c : ChanId) (u : UnitView) : (p.withView c u).rings = p.rings := rfl
@[simp] theorem Part.withView_notices (p : Part) (c : ChanId) (u : UnitView) : (p.withView c u).notices = p.notices := rfl
@[simp] theorem Part.withView_admin (p : Part) (c : ChanId) (u : UnitView) : (p.withView c u).admin = p.admin := rfl
@[simp] theorem Part.withView_port (p : Part) (c : ChanId) (u : UnitView) : (p.withView c u).port = p.port := rfl
@[simp] theorem Part.withView_device (p : Part) (c : ChanId) (u : UnitView) : (p.withView c u).device = p.device := rfl
@[simp] theorem Part.withView_marks (p : Part) (c : ChanId) (u : UnitView) : (p.withView c u).marks = (if u.emitted then p.marks.set c true else p.marks) := rfl
@[simp] theorem Part.withView_choices (p : Part) (c : ChanId) (u : UnitView) : (p.withView c u).choices = p.choices := rfl

/-! ### Part.begin -/

@[simp] theorem Part.begin_chans (p : Part) (tb : Ticks) (kind : TxKind) (address : Word32) (data : Slot) : (p.begin tb kind address data).chans = p.chans := rfl
@[simp] theorem Part.begin_lines (p : Part) (tb : Ticks) (kind : TxKind) (address : Word32) (data : Slot) : (p.begin tb kind address data).lines = p.lines := rfl
@[simp] theorem Part.begin_pairs (p : Part) (tb : Ticks) (kind : TxKind) (address : Word32) (data : Slot) : (p.begin tb kind address data).pairs = p.pairs := rfl
@[simp] theorem Part.begin_pool (p : Part) (tb : Ticks) (kind : TxKind) (address : Word32) (data : Slot) : (p.begin tb kind address data).pool = p.pool := rfl
@[simp] theorem Part.begin_rings (p : Part) (tb : Ticks) (kind : TxKind) (address : Word32) (data : Slot) : (p.begin tb kind address data).rings = p.rings := rfl
@[simp] theorem Part.begin_notices (p : Part) (tb : Ticks) (kind : TxKind) (address : Word32) (data : Slot) : (p.begin tb kind address data).notices = p.notices := rfl
@[simp] theorem Part.begin_admin (p : Part) (tb : Ticks) (kind : TxKind) (address : Word32) (data : Slot) : (p.begin tb kind address data).admin = p.admin := rfl
@[simp] theorem Part.begin_port (p : Part) (tb : Ticks) (kind : TxKind) (address : Word32) (data : Slot) : (p.begin tb kind address data).port = { p.port with
      current := some { kind := kind, address := address, data := data, limit := responseLimit tb } } := rfl
@[simp] theorem Part.begin_device (p : Part) (tb : Ticks) (kind : TxKind) (address : Word32) (data : Slot) : (p.begin tb kind address data).device = p.device := rfl
@[simp] theorem Part.begin_marks (p : Part) (tb : Ticks) (kind : TxKind) (address : Word32) (data : Slot) : (p.begin tb kind address data).marks = p.marks := rfl
@[simp] theorem Part.begin_choices (p : Part) (tb : Ticks) (kind : TxKind) (address : Word32) (data : Slot) : (p.begin tb kind address data).choices = p.choices := rfl

/-! ### Part.waitOnRing -/

@[simp] theorem Part.waitOnRing_chans (p : Part) (q : RingId) : (p.waitOnRing q).chans = p.chans := rfl
@[simp] theorem Part.waitOnRing_lines (p : Part) (q : RingId) : (p.waitOnRing q).lines = p.lines := rfl
@[simp] theorem Part.waitOnRing_pairs (p : Part) (q : RingId) : (p.waitOnRing q).pairs = p.pairs := rfl
@[simp] theorem Part.waitOnRing_pool (p : Part) (q : RingId) : (p.waitOnRing q).pool = p.pool := rfl
@[simp] theorem Part.waitOnRing_rings (p : Part) (q : RingId) : (p.waitOnRing q).rings = p.rings := rfl
@[simp] theorem Part.waitOnRing_notices (p : Part) (q : RingId) : (p.waitOnRing q).notices = p.notices := rfl
@[simp] theorem Part.waitOnRing_admin (p : Part) (q : RingId) : (p.waitOnRing q).admin = { p.admin with unit := .waiting, waitingOn := .ring q } := rfl
@[simp] theorem Part.waitOnRing_port (p : Part) (q : RingId) : (p.waitOnRing q).port = p.port := rfl
@[simp] theorem Part.waitOnRing_device (p : Part) (q : RingId) : (p.waitOnRing q).device = p.device := rfl
@[simp] theorem Part.waitOnRing_marks (p : Part) (q : RingId) : (p.waitOnRing q).marks = p.marks := rfl
@[simp] theorem Part.waitOnRing_choices (p : Part) (q : RingId) : (p.waitOnRing q).choices = p.choices := rfl

/-! ### Part.waitOnChannel -/

@[simp] theorem Part.waitOnChannel_chans (p : Part) (k : Clock) (c : ChanId) (d : Word32) : (p.waitOnChannel k c d).chans = p.chans := rfl
@[simp] theorem Part.waitOnChannel_lines (p : Part) (k : Clock) (c : ChanId) (d : Word32) : (p.waitOnChannel k c d).lines = p.lines := rfl
@[simp] theorem Part.waitOnChannel_pairs (p : Part) (k : Clock) (c : ChanId) (d : Word32) : (p.waitOnChannel k c d).pairs = p.pairs := rfl
@[simp] theorem Part.waitOnChannel_pool (p : Part) (k : Clock) (c : ChanId) (d : Word32) : (p.waitOnChannel k c d).pool = p.pool := rfl
@[simp] theorem Part.waitOnChannel_rings (p : Part) (k : Clock) (c : ChanId) (d : Word32) : (p.waitOnChannel k c d).rings = p.rings := rfl
@[simp] theorem Part.waitOnChannel_notices (p : Part) (k : Clock) (c : ChanId) (d : Word32) : (p.waitOnChannel k c d).notices = p.notices := rfl
@[simp] theorem Part.waitOnChannel_admin (p : Part) (k : Clock) (c : ChanId) (d : Word32) : (p.waitOnChannel k c d).admin = { p.admin with
      unit := .waiting
      waitingOn := .channel c
      deadline := if d = 0 then none else some (k.tb + d.setWidth 48) } := rfl
@[simp] theorem Part.waitOnChannel_port (p : Part) (k : Clock) (c : ChanId) (d : Word32) : (p.waitOnChannel k c d).port = p.port := rfl
@[simp] theorem Part.waitOnChannel_device (p : Part) (k : Clock) (c : ChanId) (d : Word32) : (p.waitOnChannel k c d).device = p.device := rfl
@[simp] theorem Part.waitOnChannel_marks (p : Part) (k : Clock) (c : ChanId) (d : Word32) : (p.waitOnChannel k c d).marks = p.marks := rfl
@[simp] theorem Part.waitOnChannel_choices (p : Part) (k : Clock) (c : ChanId) (d : Word32) : (p.waitOnChannel k c d).choices = p.choices := rfl

/-! ### Part.adminFaults -/

@[simp] theorem Part.adminFaults_chans (p : Part) (cause : Cause) : (p.adminFaults cause).chans = p.chans := rfl
@[simp] theorem Part.adminFaults_lines (p : Part) (cause : Cause) : (p.adminFaults cause).lines = p.lines := rfl
@[simp] theorem Part.adminFaults_pairs (p : Part) (cause : Cause) : (p.adminFaults cause).pairs = p.pairs := rfl
@[simp] theorem Part.adminFaults_pool (p : Part) (cause : Cause) : (p.adminFaults cause).pool = p.pool := rfl
@[simp] theorem Part.adminFaults_rings (p : Part) (cause : Cause) : (p.adminFaults cause).rings = p.rings := rfl
@[simp] theorem Part.adminFaults_notices (p : Part) (cause : Cause) : (p.adminFaults cause).notices = p.notices := rfl
@[simp] theorem Part.adminFaults_admin (p : Part) (cause : Cause) : (p.adminFaults cause).admin = { p.admin with unit := .faulted } := rfl
@[simp] theorem Part.adminFaults_port (p : Part) (cause : Cause) : (p.adminFaults cause).port = p.port := rfl
@[simp] theorem Part.adminFaults_device (p : Part) (cause : Cause) : (p.adminFaults cause).device = { p.device with state := .adminFault, cause := cause } := rfl
@[simp] theorem Part.adminFaults_marks (p : Part) (cause : Cause) : (p.adminFaults cause).marks = p.marks := rfl
@[simp] theorem Part.adminFaults_choices (p : Part) (cause : Cause) : (p.adminFaults cause).choices = p.choices := rfl

/-! ### Part.ignoreLate -/

@[simp] theorem Part.ignoreLate_chans (p : Part) (handler : TxKind → Option (Part → Part)) : (p.ignoreLate handler).chans = p.chans := rfl
@[simp] theorem Part.ignoreLate_lines (p : Part) (handler : TxKind → Option (Part → Part)) : (p.ignoreLate handler).lines = p.lines := rfl
@[simp] theorem Part.ignoreLate_pairs (p : Part) (handler : TxKind → Option (Part → Part)) : (p.ignoreLate handler).pairs = p.pairs := rfl
@[simp] theorem Part.ignoreLate_pool (p : Part) (handler : TxKind → Option (Part → Part)) : (p.ignoreLate handler).pool = p.pool := rfl
@[simp] theorem Part.ignoreLate_rings (p : Part) (handler : TxKind → Option (Part → Part)) : (p.ignoreLate handler).rings = p.rings := rfl
@[simp] theorem Part.ignoreLate_notices (p : Part) (handler : TxKind → Option (Part → Part)) : (p.ignoreLate handler).notices = p.notices := rfl
@[simp] theorem Part.ignoreLate_admin (p : Part) (handler : TxKind → Option (Part → Part)) : (p.ignoreLate handler).admin = p.admin := rfl
@[simp] theorem Part.ignoreLate_device (p : Part) (handler : TxKind → Option (Part → Part)) : (p.ignoreLate handler).device = p.device := rfl
@[simp] theorem Part.ignoreLate_marks (p : Part) (handler : TxKind → Option (Part → Part)) : (p.ignoreLate handler).marks = p.marks := rfl
@[simp] theorem Part.ignoreLate_choices (p : Part) (handler : TxKind → Option (Part → Part)) : (p.ignoreLate handler).choices = p.choices := rfl
@[simp] theorem Part.ignoreLate_port (p : Part) (handler : TxKind → Option (Part → Part)) : (p.ignoreLate handler).port =
    { p.port with withdrawn := p.port.withdrawn.eraseP fun kind => (handler kind).isSome } := rfl

/-! ### Port.withdraws and Port.lateIgnored -/

@[simp] theorem Port.withdraws_current (t : Port) : t.withdraws.current = t.current := rfl
@[simp] theorem Port.withdraws_discard (t : Port) : t.withdraws.discard = t.discard := rfl
@[simp] theorem Port.withdraws_withdrawn (t : Port) : t.withdraws.withdrawn =
    t.withdrawn ++ (t.current.map Transaction.kind).toList := rfl
@[simp] theorem Port.withdraws_writePointer (t : Port) : t.withdraws.writePointer = t.writePointer := rfl
@[simp] theorem Port.withdraws_fetchPointer (t : Port) : t.withdraws.fetchPointer = t.fetchPointer := rfl
@[simp] theorem Port.lateIgnored_current (t : Port) (kind : TxKind) : (t.lateIgnored kind).current = t.current := rfl
@[simp] theorem Port.lateIgnored_discard (t : Port) (kind : TxKind) : (t.lateIgnored kind).discard = t.discard := rfl
@[simp] theorem Port.lateIgnored_withdrawn (t : Port) (kind : TxKind) : (t.lateIgnored kind).withdrawn =
    t.withdrawn.eraseP fun old => old.alike kind := rfl
@[simp] theorem Port.lateIgnored_writePointer (t : Port) (kind : TxKind) :
    (t.lateIgnored kind).writePointer = t.writePointer := rfl
@[simp] theorem Port.lateIgnored_fetchPointer (t : Port) (kind : TxKind) :
    (t.lateIgnored kind).fetchPointer = t.fetchPointer := rfl

/-! ### Part.complete and Part.noteChoice -/

@[simp] theorem Part.complete_chans (p : Part) (st : AdminStatus) (w : Results) :
    (p.complete st w).chans = p.chans := by
  unfold Part.complete; split <;> rfl

@[simp] theorem Part.complete_lines (p : Part) (st : AdminStatus) (w : Results) :
    (p.complete st w).lines = p.lines := by
  unfold Part.complete; split <;> rfl

@[simp] theorem Part.complete_pairs (p : Part) (st : AdminStatus) (w : Results) :
    (p.complete st w).pairs = p.pairs := by
  unfold Part.complete; split <;> rfl

@[simp] theorem Part.complete_pool (p : Part) (st : AdminStatus) (w : Results) :
    (p.complete st w).pool = p.pool := by
  unfold Part.complete; split <;> rfl

@[simp] theorem Part.complete_rings (p : Part) (st : AdminStatus) (w : Results) :
    (p.complete st w).rings = p.rings := by
  unfold Part.complete; split <;> rfl

@[simp] theorem Part.complete_notices (p : Part) (st : AdminStatus) (w : Results) :
    (p.complete st w).notices = p.notices := by
  unfold Part.complete; split <;> rfl

@[simp] theorem Part.complete_port (p : Part) (st : AdminStatus) (w : Results) :
    (p.complete st w).port = p.port := by
  unfold Part.complete; split <;> rfl

@[simp] theorem Part.complete_device (p : Part) (st : AdminStatus) (w : Results) :
    (p.complete st w).device = p.device := by
  unfold Part.complete; split <;> rfl

@[simp] theorem Part.complete_marks (p : Part) (st : AdminStatus) (w : Results) :
    (p.complete st w).marks = p.marks := by
  unfold Part.complete; split <;> rfl

@[simp] theorem Part.complete_choices (p : Part) (st : AdminStatus) (w : Results) :
    (p.complete st w).choices = p.choices := by
  unfold Part.complete; split <;> rfl

@[simp] theorem Part.noteChoice_chans (p : Part) (used : Bool) : (p.noteChoice used).chans = p.chans := by
  unfold Part.noteChoice; split <;> rfl

@[simp] theorem Part.noteChoice_lines (p : Part) (used : Bool) : (p.noteChoice used).lines = p.lines := by
  unfold Part.noteChoice; split <;> rfl

@[simp] theorem Part.noteChoice_pairs (p : Part) (used : Bool) : (p.noteChoice used).pairs = p.pairs := by
  unfold Part.noteChoice; split <;> rfl

@[simp] theorem Part.noteChoice_pool (p : Part) (used : Bool) : (p.noteChoice used).pool = p.pool := by
  unfold Part.noteChoice; split <;> rfl

@[simp] theorem Part.noteChoice_rings (p : Part) (used : Bool) : (p.noteChoice used).rings = p.rings := by
  unfold Part.noteChoice; split <;> rfl

@[simp] theorem Part.noteChoice_notices (p : Part) (used : Bool) : (p.noteChoice used).notices = p.notices := by
  unfold Part.noteChoice; split <;> rfl

@[simp] theorem Part.noteChoice_admin (p : Part) (used : Bool) : (p.noteChoice used).admin = p.admin := by
  unfold Part.noteChoice; split <;> rfl

@[simp] theorem Part.noteChoice_port (p : Part) (used : Bool) : (p.noteChoice used).port = p.port := by
  unfold Part.noteChoice; split <;> rfl

@[simp] theorem Part.noteChoice_device (p : Part) (used : Bool) : (p.noteChoice used).device = p.device := by
  unfold Part.noteChoice; split <;> rfl

@[simp] theorem Part.noteChoice_marks (p : Part) (used : Bool) : (p.noteChoice used).marks = p.marks := by
  unfold Part.noteChoice; split <;> rfl

@[simp] theorem Part.postInvalid_chans (p : Part) (id : BitVec 4) : (p.postInvalid id).chans = p.chans := by
  unfold Part.postInvalid; split <;> rfl

@[simp] theorem Part.postInvalid_lines (p : Part) (id : BitVec 4) : (p.postInvalid id).lines = p.lines := by
  unfold Part.postInvalid; split <;> rfl

@[simp] theorem Part.postInvalid_pairs (p : Part) (id : BitVec 4) : (p.postInvalid id).pairs = p.pairs := by
  unfold Part.postInvalid; split <;> rfl

@[simp] theorem Part.postInvalid_pool (p : Part) (id : BitVec 4) : (p.postInvalid id).pool = p.pool := by
  unfold Part.postInvalid; split <;> rfl

@[simp] theorem Part.postInvalid_rings (p : Part) (id : BitVec 4) : (p.postInvalid id).rings = p.rings := by
  unfold Part.postInvalid; split <;> rfl

@[simp] theorem Part.postInvalid_notices (p : Part) (id : BitVec 4) : (p.postInvalid id).notices = p.notices := by
  unfold Part.postInvalid; split <;> rfl

@[simp] theorem Part.postInvalid_admin (p : Part) (id : BitVec 4) : (p.postInvalid id).admin = p.admin := by
  unfold Part.postInvalid; split <;> rfl

@[simp] theorem Part.postInvalid_port (p : Part) (id : BitVec 4) : (p.postInvalid id).port = p.port := by
  unfold Part.postInvalid; split <;> rfl

@[simp] theorem Part.postInvalid_marks (p : Part) (id : BitVec 4) : (p.postInvalid id).marks = p.marks := by
  unfold Part.postInvalid; split <;> rfl

@[simp] theorem State.clock_tb (s : State) : s.clock.tb = s.tb := rfl

end Sys2Proof.Machine
end

