-- ==== Sys2Proof/Laws/Blocks.lean ====
section
/-! SUPPORT. What the shared operations can do, said once for each: the arbiter's grant, the arrival of marks,
the turns of a channel unit, and the events of a tick. -/

namespace Sys2Proof.Machine

/-! ### The arbiter's grant (R159) -/

/-- Everything a grant can be: none, or the beginning of one asking requester's transaction on an IDLE port. -/
theorem Part.grant_cases (p : Part) (tb : Ticks) :
    p.grant tb = p
      ∨ p.port.current = none ∧
        ((∃ e, p.admin.asksWrite = some e ∧ p.grant tb = p.grantAcq tb e)
          ∨ (∃ q e part, p.ringAsks q = some (e, part) ∧ p.grant tb = p.grantEntry tb q e part)
          ∨ (∃ c : ChanId, p.chans[c].eligible = true ∧ p.grant tb = p.grantStep tb c)
          ∨ (p.asksAdminRead = true ∧ p.grant tb = p.grantAdminRead tb)
          ∨ (p.asksConfigRead = true ∧ p.grant tb = p.grantConfig tb)) := by
  unfold Part.grant
  split
  · exact .inl rfl
  · rename_i hport
    split
    · rename_i e he
      exact .inr ⟨hport, .inl ⟨e, he, rfl⟩⟩
    · split
      · rename_i q e part h
        obtain ⟨l1, a, l2, -, hq, -⟩ := List.findSome?_eq_some_iff.mp h
        simp only [Option.map_eq_some_iff, Prod.mk.injEq] at hq
        obtain ⟨b, hb, rfl, hb2⟩ := hq
        subst hb2
        exact .inr ⟨hport, .inr (.inl ⟨a, e, part, hb, rfl⟩)⟩
      · split
        · rename_i c h
          exact .inr ⟨hport, .inr (.inr (.inl ⟨c, by simpa using List.find?_some h, rfl⟩))⟩
        · split
          · rename_i h
            exact .inr ⟨hport, .inr (.inr (.inr (.inl ⟨h, rfl⟩)))⟩
          · split
            · rename_i h
              exact .inr ⟨hport, .inr (.inr (.inr (.inr ⟨h, rfl⟩)))⟩
            · exact .inl rfl

/-- A port that carries a transaction grants nothing (R157). -/
theorem Part.grant_busy {p : Part} {t : Transaction} (h : p.port.current = some t) (tb : Ticks) :
    p.grant tb = p := by
  simp [Part.grant, h]

@[simp] theorem Part.grant_pool (p : Part) (tb : Ticks) : (p.grant tb).pool = p.pool := by
  rcases p.grant_cases tb with h | ⟨-, ⟨_, -, h⟩ | ⟨_, _, _, -, h⟩ | ⟨_, -, h⟩ | ⟨-, h⟩ | ⟨-, h⟩⟩ <;> rw [h] <;> rfl

@[simp] theorem Part.grant_lines (p : Part) (tb : Ticks) : (p.grant tb).lines = p.lines := by
  rcases p.grant_cases tb with h | ⟨-, ⟨_, -, h⟩ | ⟨_, _, _, -, h⟩ | ⟨_, -, h⟩ | ⟨-, h⟩ | ⟨-, h⟩⟩ <;> rw [h] <;> rfl

@[simp] theorem Part.grant_pairs (p : Part) (tb : Ticks) : (p.grant tb).pairs = p.pairs := by
  rcases p.grant_cases tb with h | ⟨-, ⟨_, -, h⟩ | ⟨_, _, _, -, h⟩ | ⟨_, -, h⟩ | ⟨-, h⟩ | ⟨-, h⟩⟩ <;> rw [h] <;> rfl

@[simp] theorem Part.grant_notices (p : Part) (tb : Ticks) : (p.grant tb).notices = p.notices := by
  rcases p.grant_cases tb with h | ⟨-, ⟨_, -, h⟩ | ⟨_, _, _, -, h⟩ | ⟨_, -, h⟩ | ⟨-, h⟩ | ⟨-, h⟩⟩ <;> rw [h] <;> rfl

@[simp] theorem Part.grant_marks (p : Part) (tb : Ticks) : (p.grant tb).marks = p.marks := by
  rcases p.grant_cases tb with h | ⟨-, ⟨_, -, h⟩ | ⟨_, _, _, -, h⟩ | ⟨_, -, h⟩ | ⟨-, h⟩ | ⟨-, h⟩⟩ <;> rw [h] <;> rfl

@[simp] theorem Part.grant_choices (p : Part) (tb : Ticks) : (p.grant tb).choices = p.choices := by
  rcases p.grant_cases tb with h | ⟨-, ⟨_, -, h⟩ | ⟨_, _, _, -, h⟩ | ⟨_, -, h⟩ | ⟨-, h⟩ | ⟨-, h⟩⟩ <;> rw [h] <;> rfl

/-- A grant changes of a channel context at most the fetcher's two flags, and clears the stale mark (R5). -/
theorem Part.grant_chans (p : Part) (tb : Ticks) (c : ChanId) :
    (p.grant tb).chans[c] = p.chans[c]
      ∨ p.chans[c].eligible = true
        ∧ (p.grant tb).chans[c] = { p.chans[c] with fetchInFlight := true, stale := false } := by
  rcases p.grant_cases tb with h | ⟨-, ⟨_, -, h⟩ | ⟨_, _, _, -, h⟩ | ⟨d, hd, h⟩ | ⟨-, h⟩ | ⟨-, h⟩⟩ <;> rw [h]
  · exact .inl rfl
  · exact .inl rfl
  · exact .inl rfl
  · by_cases hc : d = c
    · subst hc
      exact .inr ⟨hd, by simp [Part.grantStep]⟩
    · left
      have : d.val ≠ c.val := fun h => hc (Fin.ext h)
      simp [Part.grantStep, this]
  · exact .inl rfl
  · exact .inl rfl

/-! ### Marks (R75) -/

/-- With no mark newly on the bus, no channel is reached. -/
@[simp] theorem Part.reached_self (p : Part) : p.reached p.marks = [] := by
  simp [Part.reached]

/-- A step that puts no mark on the bus closes with the arbiter's grant alone. -/
theorem Part.closeStep_quiet {p : Part} {before : Vector Bool 8} (h : p.marks = before) (k : Clock) :
    p.closeStep k before = p.grant k.tb := by
  subst h
  have : (p.grant k.tb).reached p.marks = [] := by
    have := (p.grant k.tb).reached_self
    rwa [Part.grant_marks] at this
  simp [Part.closeStep, this, arrivalLimit, Part.deliver, chooseNext]

/-- What every arrival of a mark keeps, and the grants with it, the delivery of marks keeps. -/
theorem Part.deliver_keeps {P : Part → Prop} {k : Clock}
    (note : ∀ p used, P p → P (p.noteChoice used))
    (arrive : ∀ p c, P p → P (p.markArrives k c)) :
    ∀ (fuel : Nat) (l : List ChanId) (p : Part), P p → P (Part.deliver k fuel l p) := by
  intro fuel
  induction fuel with
  | zero => intro l p h; exact h
  | succ n ih =>
    intro l p h
    unfold Part.deliver
    split
    · exact h
    · exact ih _ _ (arrive _ _ (note _ _ h))

/-- What a grant and the satisfaction of a waiting channel's condition keep, the closing of a step keeps. -/
theorem Part.closeStep_keeps {P : Part → Prop} {k : Clock}
    (note : ∀ p used, P p → P (p.noteChoice used))
    (grant : ∀ p, P p → P (p.grant k.tb))
    (satisfy : ∀ p (c : ChanId), P p → p.chans[c].awaitsMark = true → P (p.atUnit k c UnitView.satisfied))
    (p : Part) (before : Vector Bool 8) (h : P p) : P (p.closeStep k before) := by
  refine Part.deliver_keeps note ?_ _ _ _ (grant _ h)
  intro p c hp
  unfold Part.markArrives
  split
  · rename_i hc
    exact grant _ (satisfy _ _ hp hc)
  · exact hp

/-! ### Answers (R161, R163) -/

/-- Everything a result of the outstanding transaction can do: nothing where the port carries no transaction that
the handler takes; the end of a transaction whose result is discarded; or its end with the result handed over. -/
theorem Part.ended_cases (p : Part) (k : Clock) (handler : TxKind → Option (Part → Part)) :
    p.ended k handler = p
      ∨ (∃ t f, p.port.current = some t ∧ handler t.kind = some f ∧ p.port.discard = true
          ∧ p.ended k handler = p.endTransaction.closeStep k p.marks)
      ∨ (∃ t f, p.port.current = some t ∧ handler t.kind = some f ∧ p.port.discard = false
          ∧ p.ended k handler = (f p.endTransaction).closeStep k p.marks) := by
  unfold Part.ended
  split
  · exact .inl rfl
  · rename_i t ht
    split
    · exact .inl rfl
    · rename_i f hf
      by_cases hd : p.port.discard = true
      · exact .inr (.inl ⟨t, f, ht, hf, hd, by simp [hd]⟩)
      · exact .inr (.inr ⟨t, f, ht, hf, by simpa using hd, by simp [hd]⟩)

/-- Everything an answer can be: the answer to the outstanding transaction, or the late answer to a withdrawn one,
which is ignored; an open choice says which where it could be either (R161, log entry 37). -/
theorem Part.answered_cases (p : Part) (k : Clock) (handler : TxKind → Option (Part → Part)) :
    ∃ used, p.answered k handler = (p.noteChoice used).ended k handler
      ∨ p.port.awaitsLate handler = true ∧ p.answered k handler = (p.noteChoice used).ignoreLate handler := by
  unfold Part.answered
  split
  · rename_i hl
    split
    · refine ⟨true, ?_⟩
      split
      · exact .inr ⟨hl, rfl⟩
      · exact .inl rfl
    · exact ⟨false, .inr ⟨hl, rfl⟩⟩
  · exact ⟨false, .inl rfl⟩

/-- A port that waits for no late answer of a kind ends the outstanding transaction at an answer of the kind
(R161). -/
theorem Part.answered_of_not_late {p : Part} {kind : TxKind} {handler : TxKind → Option (Part → Part)}
    (h : ¬ p.port.lateLike kind) (only : ∀ old, (handler old).isSome = true → old.alike kind = true) (k : Clock) :
    p.answered k handler = p.ended k handler := by
  have hl : p.port.awaitsLate handler = false := by
    rw [Bool.eq_false_iff]
    intro hl
    obtain ⟨old, hm, ho⟩ := List.any_eq_true.mp hl
    exact h ⟨old, hm, only old ho⟩
  simp [Part.answered, hl]

/-- The result of a live transaction that the handler takes (R161). -/
theorem Part.ended_live {p : Part} {kind : TxKind} {handler : TxKind → Option (Part → Part)} {f : Part → Part}
    (h : p.port.carries kind) (hf : handler kind = some f) (k : Clock) :
    p.ended k handler = (f p.endTransaction).closeStep k p.marks := by
  obtain ⟨hd, hk⟩ := h
  obtain ⟨t, ht, rfl⟩ := Option.map_eq_some_iff.mp hk
  simp [Part.ended, ht, hf, hd]

/-- An answer to a live transaction that the handler takes, with no late answer of its kind to come (R161). -/
theorem Part.answered_live {p : Part} {kind : TxKind} {handler : TxKind → Option (Part → Part)}
    {f : Part → Part} (h : p.port.answers kind) (hf : handler kind = some f)
    (only : ∀ old, (handler old).isSome = true → old.alike kind = true) (k : Clock) :
    p.answered k handler = (f p.endTransaction).closeStep k p.marks := by
  rw [Part.answered_of_not_late h.2 only, Part.ended_live h.1 hf]

/-- A late answer, where the port carries no transaction of its kind, is ignored (R161). -/
theorem Part.answered_late {p : Part} {handler : TxKind → Option (Part → Part)}
    (h : p.port.awaitsLate handler = true) (hc : p.port.takenBy handler = false) (k : Clock) :
    p.answered k handler = p.ignoreLate handler := by
  simp [Part.answered, h, hc]

/-! ### Channel units -/

/-- What one turn keeps, every turn of an event keeps. -/
theorem UnitView.proceed_keeps {P : UnitView → Prop} {x : UnitContext}
    (turn : ∀ u v, P u → u.turn x = some v → P v) :
    ∀ (fuel : Nat) (u : UnitView), P u → P (u.proceed x fuel) := by
  intro fuel
  induction fuel with
  | zero => intro u h; exact h
  | succ n ih =>
    intro u h
    unfold UnitView.proceed
    split
    · exact h
    · rename_i v hv
      exact ih _ (turn _ _ h hv)

/-- Everything an event at unit `c` can do to the part: the unit's view is put back, and a halt report may
complete the waiting admin command (R149). -/
theorem Part.atUnit_eq (p : Part) (k : Clock) (c : ChanId) (f : UnitContext → UnitView → UnitView) :
    ∃ u, u = (f (p.context k c) (p.view c)).settle ∧ p.atUnit k c f = (p.withView c u).hearHalt c u.told :=
  ⟨_, rfl, rfl⟩

/-- Everything the admin unit does when it hears of a halt report: it completes the command that waits for it, or
nothing (R149). -/
theorem Part.hearHalt_cases (p : Part) (c : ChanId) (told : Option HaltReport) :
    p.hearHalt c told = p
      ∨ ∃ h, told = some h ∧ p.waitsOnChannel c = true ∧ p.hearHalt c told = p.complete .ok h.words := by
  unfold Part.hearHalt
  split
  · exact .inl rfl
  · rename_i h
    split
    · rename_i hw
      exact .inr ⟨h, rfl, hw, rfl⟩
    · exact .inl rfl

/-! ### Ticks (R70) -/

/-- What every event of a tick keeps, the taking of the due events keeps. -/
theorem Part.takeDue_keeps {P : Part → Prop} {k : Clock}
    (note : ∀ p used, P p → P (p.noteChoice used)) (fire : ∀ p e, P p → P (p.fire k e)) :
    ∀ (fuel : Nat) (p : Part), P p → P (Part.takeDue k fuel p) := by
  intro fuel
  induction fuel with
  | zero => intro p h; exact h
  | succ n ih =>
    intro p h
    unfold Part.takeDue
    split
    · exact h
    · exact ih _ (fire _ _ (note _ _ h))

/-- With nothing due, no event is taken. -/
theorem Part.takeDue_none {p : Part} {k : Clock} (h : p.due k = []) (fuel : Nat) :
    Part.takeDue k fuel p = p := by
  cases fuel <;> simp [Part.takeDue, h, chooseNext]

/-- Everything an event of a channel can do: nothing where it is not due. -/
theorem Part.unitEvent_cases (p : Part) (k : Clock) (c : ChanId) (due : Bool)
    (f : UnitContext → UnitView → UnitView) :
    p.unitEvent k c due f = p
      ∨ due = true ∧ p.unitEvent k c due f = (p.atUnit k c f).closeStep k p.marks := by
  cases due
  · exact .inl rfl
  · exact .inr ⟨rfl, rfl⟩

/-! ### The answers of the current tick (R168) -/

/-- A TICK or HARD_RESET at the front of the queue ends the current tick; any other command falls within it. -/
theorem restOfTick_cons (i : Instr) (l : List Instr) :
    ((∃ pins, i = .tick pins) ∨ ∃ pins, i = .hardReset pins) ∧ restOfTick (i :: l) = []
      ∨ (∀ pins, i ≠ .tick pins) ∧ (∀ pins, i ≠ .hardReset pins) ∧ restOfTick (i :: l) = i :: restOfTick l := by
  cases i <;> simp [restOfTick]

/-- An answer comes in the current tick where one waits in the queue with neither TICK nor HARD_RESET in front of it. -/
theorem answerComes_iff (l : List Instr) (kind : TxKind) :
    answerComes l kind = true ↔ ∃ (before rest : List Instr) (i : Instr), l = before ++ i :: rest
      ∧ (∀ x ∈ before, (∀ pins, x ≠ .tick pins) ∧ ∀ pins, x ≠ .hardReset pins) ∧ answeredKind i = some kind := by
  induction l with
  | nil => simp [answerComes, restOfTick]
  | cons a l ih =>
    obtain ⟨ha, h⟩ | ⟨h1, h2, h⟩ := restOfTick_cons a l
    · simp only [answerComes, h, List.any_nil, Bool.false_eq_true, false_iff]
      rintro ⟨before, rest, i, hl, hb, hi⟩
      cases before with
      | nil =>
        obtain ⟨rfl, -⟩ := List.cons.inj hl
        obtain ⟨pins, rfl⟩ | ⟨pins, rfl⟩ := ha <;> cases hi
      | cons b bs =>
        obtain ⟨rfl, -⟩ := List.cons.inj hl
        have := hb a (by simp)
        obtain ⟨pins, hp⟩ | ⟨pins, hp⟩ := ha
        · exact this.1 pins hp
        · exact this.2 pins hp
    · simp only [answerComes] at ih
      simp only [answerComes, h, List.any_cons, Bool.or_eq_true, ih, beq_iff_eq]
      constructor
      · rintro (hk | ⟨before, rest, i, rfl, hb, hi⟩)
        · exact ⟨[], l, a, rfl, by simp, hk⟩
        · refine ⟨a :: before, rest, i, rfl, ?_, hi⟩
          simp only [List.mem_cons, forall_eq_or_imp]
          exact ⟨⟨h1, h2⟩, hb⟩
      · rintro ⟨before, rest, i, hl, hb, hi⟩
        cases before with
        | nil =>
          obtain ⟨rfl, -⟩ := List.cons.inj hl
          exact .inl hi
        | cons b bs =>
          obtain ⟨-, rfl⟩ := List.cons.inj hl
          exact .inr ⟨bs, rest, i, rfl, fun x hx => hb x (List.mem_cons_of_mem _ hx), hi⟩

end Sys2Proof.Machine
end

