-- ==== Sys2Proof/Laws/Operands.lean ====
section
/-! SUPPORT. What the checks of the operand fields accept. -/

namespace Sys2Proof.Machine

/-- The size check of the ring commands and of the configuration block accepts exactly the powers of two within
its bounds (R143, R147, R166). -/
theorem legalSize_iff {low high n : Nat} (h : 1 ≤ low) :
    legalSize low high n = true ↔ low ≤ n ∧ n ≤ high ∧ ∃ k, n = 2 ^ k := by
  have pow : 1 ≤ n → ((n &&& (n - 1)) = 0 ↔ ∃ k, n = 2 ^ k) := fun h1 =>
    Nat.and_sub_one_eq_zero_iff_isPowerOfTwo (n := n) (by omega)
  simp only [legalSize, Bool.and_eq_true, decide_eq_true_eq, beq_iff_eq]
  constructor
  · rintro ⟨⟨h1, h2⟩, h3⟩
    exact ⟨h1, h2, (pow (by omega)).1 h3⟩
  · rintro ⟨h1, h2, h3⟩
    exact ⟨⟨h1, h2⟩, (pow (by omega)).2 h3⟩

end Sys2Proof.Machine
end

