-- ==== Sys2Proof/Laws/PerInstr.lean ====
section
/-! SUPPORT. Statements about every command as syntax, one lemma per constructor. -/

namespace Sys2Proof.Laws

/-- The register word of a well-formed command is an ignored write exactly where the command is
IGNORED_REGISTER_WRITE of that word (R174): no other command is written in a form that changes nothing. -/
def HostWordIsHeeded.Statement (i : Instr) : Prop :=
  i.wellFormed = true → ∀ (register : Reg) (value : Word32), encodeHostWord i = some (.write register value) →
    (ignoredWrite register value = true ↔ i = .ignoredRegisterWrite register value)

theorem HostWordIsHeeded.hardReset (pins : BitVec 16) : HostWordIsHeeded.Statement (.hardReset pins) :=
  fun _ _ _ e => by cases e

theorem HostWordIsHeeded.reset : HostWordIsHeeded.Statement .reset :=
  fun _ _ _ e => by cases e; simp [ignoredWrite]

theorem HostWordIsHeeded.enable : HostWordIsHeeded.Statement .enable :=
  fun _ _ _ e => by cases e; simp [ignoredWrite]

theorem HostWordIsHeeded.restartAdmin : HostWordIsHeeded.Statement .restartAdmin :=
  fun _ _ _ e => by cases e; simp [ignoredWrite]

theorem HostWordIsHeeded.tbloRead : HostWordIsHeeded.Statement .tbloRead :=
  fun _ _ _ e => by cases e

theorem HostWordIsHeeded.devstatWrite (value : Word32) : HostWordIsHeeded.Statement (.devstatWrite value) :=
  fun h _ _ e => by cases e; simp_all [Instr.wellFormed]

theorem HostWordIsHeeded.cfgbaseWrite (value : Word32) : HostWordIsHeeded.Statement (.cfgbaseWrite value) :=
  fun _ _ _ e => by cases e; simp [ignoredWrite]

theorem HostWordIsHeeded.intstatWrite (value : Word32) : HostWordIsHeeded.Statement (.intstatWrite value) :=
  fun h _ _ e => by cases e; simp_all [Instr.wellFormed]

theorem HostWordIsHeeded.ignoredRegisterWrite (register : Reg) (value : Word32) : HostWordIsHeeded.Statement (.ignoredRegisterWrite register value) :=
  fun h _ _ e => by cases e; exact ⟨fun _ => rfl, fun _ => h⟩

theorem HostWordIsHeeded.postStepTail (channel : ChanId) (index : BitVec 16) : HostWordIsHeeded.Statement (.postStepTail channel index) :=
  fun _ _ _ e => by cases e; simp [ignoredWrite]

theorem HostWordIsHeeded.postCqHead (ring : RingId) (index : BitVec 16) : HostWordIsHeeded.Statement (.postCqHead ring index) :=
  fun _ _ _ e => by cases e; simp [ignoredWrite]

theorem HostWordIsHeeded.postAdminTail (index : BitVec 16) : HostWordIsHeeded.Statement (.postAdminTail index) :=
  fun _ _ _ e => by cases e; simp [ignoredWrite]

theorem HostWordIsHeeded.postAcqHead (index : BitVec 16) : HostWordIsHeeded.Statement (.postAcqHead index) :=
  fun _ _ _ e => by cases e; simp [ignoredWrite]

theorem HostWordIsHeeded.nop (record : CommandRecord) : HostWordIsHeeded.Statement (.nop record) :=
  fun _ _ _ e => by cases e

theorem HostWordIsHeeded.cqCreate (record : CommandRecord) : HostWordIsHeeded.Statement (.cqCreate record) :=
  fun _ _ _ e => by cases e

theorem HostWordIsHeeded.cqDelete (record : CommandRecord) : HostWordIsHeeded.Statement (.cqDelete record) :=
  fun _ _ _ e => by cases e

theorem HostWordIsHeeded.cqReset (record : CommandRecord) : HostWordIsHeeded.Statement (.cqReset record) :=
  fun _ _ _ e => by cases e

theorem HostWordIsHeeded.cqNotice (record : CommandRecord) : HostWordIsHeeded.Statement (.cqNotice record) :=
  fun _ _ _ e => by cases e

theorem HostWordIsHeeded.chOpen (record : CommandRecord) : HostWordIsHeeded.Statement (.chOpen record) :=
  fun _ _ _ e => by cases e

theorem HostWordIsHeeded.chHalt (record : CommandRecord) : HostWordIsHeeded.Statement (.chHalt record) :=
  fun _ _ _ e => by cases e

theorem HostWordIsHeeded.chClose (record : CommandRecord) : HostWordIsHeeded.Statement (.chClose record) :=
  fun _ _ _ e => by cases e

theorem HostWordIsHeeded.chResume (record : CommandRecord) : HostWordIsHeeded.Statement (.chResume record) :=
  fun _ _ _ e => by cases e

theorem HostWordIsHeeded.chRead (record : CommandRecord) : HostWordIsHeeded.Statement (.chRead record) :=
  fun _ _ _ e => by cases e

theorem HostWordIsHeeded.pairJoin (record : CommandRecord) : HostWordIsHeeded.Statement (.pairJoin record) :=
  fun _ _ _ e => by cases e

theorem HostWordIsHeeded.pairSplit (record : CommandRecord) : HostWordIsHeeded.Statement (.pairSplit record) :=
  fun _ _ _ e => by cases e

theorem HostWordIsHeeded.posSet (record : CommandRecord) : HostWordIsHeeded.Statement (.posSet record) :=
  fun _ _ _ e => by cases e

theorem HostWordIsHeeded.linePark (record : CommandRecord) : HostWordIsHeeded.Statement (.linePark record) :=
  fun _ _ _ e => by cases e

theorem HostWordIsHeeded.badOpcode (opcode : BitVec 8) (record : CommandRecord) : HostWordIsHeeded.Statement (.badOpcode opcode record) :=
  fun _ _ _ e => by cases e

theorem HostWordIsHeeded.adminReadError : HostWordIsHeeded.Statement .adminReadError :=
  fun _ _ _ e => by cases e

theorem HostWordIsHeeded.acqWriteDone : HostWordIsHeeded.Statement .acqWriteDone :=
  fun _ _ _ e => by cases e

theorem HostWordIsHeeded.acqWriteError : HostWordIsHeeded.Statement .acqWriteError :=
  fun _ _ _ e => by cases e

theorem HostWordIsHeeded.configReadReturn (block : BitVec 512) : HostWordIsHeeded.Statement (.configReadReturn block) :=
  fun _ _ _ e => by cases e

theorem HostWordIsHeeded.configReadError : HostWordIsHeeded.Statement .configReadError :=
  fun _ _ _ e => by cases e

theorem HostWordIsHeeded.stepReadReturn (record : Slot) : HostWordIsHeeded.Statement (.stepReadReturn record) :=
  fun _ _ _ e => by cases e

theorem HostWordIsHeeded.stepReadError : HostWordIsHeeded.Statement .stepReadError :=
  fun _ _ _ e => by cases e

theorem HostWordIsHeeded.entryWriteDone : HostWordIsHeeded.Statement .entryWriteDone :=
  fun _ _ _ e => by cases e

theorem HostWordIsHeeded.entryWriteError : HostWordIsHeeded.Statement .entryWriteError :=
  fun _ _ _ e => by cases e

theorem HostWordIsHeeded.discardedTransactionEnd : HostWordIsHeeded.Statement .discardedTransactionEnd :=
  fun _ _ _ e => by cases e

theorem HostWordIsHeeded.responseLimitExpiry : HostWordIsHeeded.Statement .responseLimitExpiry :=
  fun _ _ _ e => by cases e

theorem HostWordIsHeeded.noticeTimerExpiry (context : NoticeId) : HostWordIsHeeded.Statement (.noticeTimerExpiry context) :=
  fun _ _ _ e => by cases e

theorem HostWordIsHeeded.deadlineExpiry : HostWordIsHeeded.Statement .deadlineExpiry :=
  fun _ _ _ e => by cases e

theorem HostWordIsHeeded.atTimeSatisfied (channel : ChanId) : HostWordIsHeeded.Statement (.atTimeSatisfied channel) :=
  fun _ _ _ e => by cases e

theorem HostWordIsHeeded.markTimeout (channel : ChanId) : HostWordIsHeeded.Statement (.markTimeout channel) :=
  fun _ _ _ e => by cases e

theorem HostWordIsHeeded.cycleEnd (channel : ChanId) : HostWordIsHeeded.Statement (.cycleEnd channel) :=
  fun _ _ _ e => by cases e

theorem HostWordIsHeeded.overrange (channel : ChanId) : HostWordIsHeeded.Statement (.overrange channel) :=
  fun _ _ _ e => by cases e

theorem HostWordIsHeeded.windowEnd (channel : ChanId) : HostWordIsHeeded.Statement (.windowEnd channel) :=
  fun _ _ _ e => by cases e

theorem HostWordIsHeeded.captureEdge (channel : ChanId) : HostWordIsHeeded.Statement (.captureEdge channel) :=
  fun _ _ _ e => by cases e

theorem HostWordIsHeeded.windowEdge (channel : ChanId) : HostWordIsHeeded.Statement (.windowEdge channel) :=
  fun _ _ _ e => by cases e

theorem HostWordIsHeeded.countStep (channel : ChanId) : HostWordIsHeeded.Statement (.countStep channel) :=
  fun _ _ _ e => by cases e

theorem HostWordIsHeeded.tick (pins : BitVec 16) : HostWordIsHeeded.Statement (.tick pins) :=
  fun _ _ _ e => by cases e

theorem HostWordIsHeeded.postRingId1415 (id15 : Bool) (index : BitVec 16) : HostWordIsHeeded.Statement (.postRingId1415 id15 index) :=
  fun _ _ _ e => by cases e; simp [ignoredWrite]

end Sys2Proof.Laws
end

