-- ==== Sys2Proof/Laws/Units.lean ====
section
/-! SUPPORT. What a channel unit can do at an event, said once for each shared operation, and how a command's
effect closes. -/

namespace Sys2Proof.Machine

/-! ### What a unit reads -/

@[simp] theorem Part.context_id (p : Part) (k : Clock) (c : ChanId) : (p.context k c).id = c := rfl

@[simp] theorem Part.context_clock (p : Part) (k : Clock) (c : ChanId) : (p.context k c).clock = k := rfl

@[simp] theorem Part.context_wide (p : Part) (k : Clock) (c : ChanId) : (p.context k c).wide = p.wide c := rfl

/-! ### How a command's effect closes (R75, R159) -/

/-- An effect that puts no mark on the bus closes with the arbiter's grant (R159). -/
theorem State.next_closeStep_quiet {s : State} {p q : Part} (h : p = q) (hm : q.marks = s.part.marks) :
    (Host.Outcome.next { s with part := p.closeStep s.clock s.part.marks } : Host.Outcome State Fault Refusal)
      = .next (s.granted q) := by
  subst h
  rw [Part.closeStep_quiet hm]
  rfl

/-- An admin record with the bytes outside its named fields zero, which a live admin read returns: the command's
body runs on the part that has taken it (R135, R137). -/
theorem Part.command_live {s : State} {n : Nat} {r : CommandRecord} {f : Part → Part}
    (h : s.part.port.answers .adminRead) (hz : r.zerosHold n = true) (k : Clock) :
    s.part.command k n r f = (f (s.taken (BitVec.ofNat 8 n) r)).closeStep k s.part.marks := by
  unfold Part.command
  rw [Part.answered_live h rfl (fun old ho => by cases old <;> simp_all [TxKind.alike])]
  simp [hz, State.taken]

/-- The current command completes: its ACQ entry is composed and the unit is POSTING (R138). -/
theorem Part.complete_current {p : Part} {c : Command} (h : p.admin.current = some c) (status : AdminStatus)
    (results : Results) :
    p.complete status results = { p with admin := { p.admin with
      unit := .posting
      completion := some
        { opcode := c.opcode, status := status, tag := c.record.tag
          adminHead := bump c.index p.admin.ringSize, results := results }
      deadline := none
      waitingOn := .nothing } } := by
  simp [Part.complete, h]

/-! ### Lines -/

/-- The drives set for a channel depend on its claims alone (R87). -/
theorem setDrives_congr (l : Vector LineEntry 16) {ch ch2 : Channel} (hb : ch2.bLine = ch.bLine)
    (ha : ch2.aLine = ch.aLine) (b a : Drive) : setDrives l ch2 b a = setDrives l ch b a := by
  simp only [setDrives, hb, ha]

/-- The drives of a channel in the first tick of its step (R33, R87). -/
theorem driveLines_first (l : Vector LineEntry 16) {ch ch2 : Channel} {e : Step}
    (hb : ch2.bLine = ch.bLine) (ha : ch2.aLine = ch.aLine) (he : ch2.active = some e)
    (h0 : ch2.counter = 0) (h1 : ch2.oddCycle = true) (h2 : ch2.cycleCount = 0) :
    driveLines l ch2 = linesAtStart l ch e.record := by
  simp only [driveLines, linesAtStart, he, h0, h1, h2, setDrives, hb, ha]

/-! ### Steps -/

/-- Validation reads of a channel its class and its a_line alone (R30, R50, R98). -/
theorem validate_congr {ch ch2 : Channel} (hc : ch2.cls = ch.cls) (ha : ch2.aLine = ch.aLine) (wide : Bool)
    (r : StepRecord) : validate ch2 wide r = validate ch wide r := by
  have h1 : failsClass ch2 = failsClass ch := by
    funext k
    simp only [failsClass, hc]
  have h2 : failsLine ch2 = failsLine ch := by
    funext k r
    simp only [failsLine, ha]
  unfold validate
  rw [h1, h2]

/-- A channel that keeps its law is in the state its window gives it (R3). -/
theorem Channel.derivedState_of_law {ch : Channel} (h : ch.Law) : ch.derivedState = ch.state := by
  obtain ⟨h1, h2, h3, h4, -, -, h6, -⟩ := h
  unfold Channel.derivedState
  cases hs : ch.state
  · rfl
  · have := h4 (.inl hs)
    simp [this.1, this.2]
  · have he := h2.mp hs
    obtain ⟨-, ha, hq⟩ := h6 he
    simp [he, ha, hq]
  · simp [h1.mp hs]
  · have := h3 hs
    simp [this.1, this.2]
  · rfl
  · rfl

/-- Everything one turn of a channel unit can be: it stops on a fault, arms, removes, preempts, supersedes, begins
the start of an armed step, becomes HELD, or starts the step (R8, R10 to R13, R25, R67). -/
theorem UnitView.turn_cases {x : UnitContext} {u v : UnitView} (h : u.turn x = some v) :
    u.ch.noSteps = false ∧
      (u.ch.queue = [] ∧ u.ch.active = none ∧ u.ch.fetchFault = true ∧ v = u.stopOnFault x
        ∨ ∃ e rest, u.ch.queue = e :: rest ∧
          (u.ch.armed = .none ∧ v = u.arm x e
            ∨ (∃ status value time, u.ch.armed = .removal status value time ∧ u.canStage x = true
                ∧ v = u.remove x e status value time)
            ∨ (∃ a, u.ch.armed = .good ∧ u.ch.active = some a ∧
                (e.record.isImmediate = true ∧ v = u.endActive x .preempted false
                  ∨ (a.record.isKind .position && a.record.continuous) = true
                    ∧ v = u.supersede x a e))
            ∨ (u.ch.armed = .good ∧ u.ch.active = none ∧ u.ch.evaluation = .none ∧ v = u.beginStart x e)
            ∨ (∃ late, u.ch.armed = .due late false ∧ u.ch.active = none
                ∧ u.pool.reservedBusy x.id = true
                ∧ v = { u with ch := { u.ch with armed := .due late true } })
            ∨ (∃ late held, u.ch.armed = .due late held ∧ u.ch.active = none
                ∧ u.pool.reservedBusy x.id = false ∧ v = u.start e late held))) := by
  unfold UnitView.turn at h
  split at h
  · cases h
  · rename_i hn
    refine ⟨by simpa using hn, ?_⟩
    split at h
    · rename_i hq
      split at h
      · rename_i hf
        simp only [Bool.and_eq_true, Option.isNone_iff_eq_none] at hf
        exact .inl ⟨hq, hf.1, hf.2, (Option.some.inj h).symm⟩
      · cases h
    · rename_i e rest hq
      refine .inr ⟨e, rest, hq, ?_⟩
      split at h
      · rename_i ha
        exact .inl ⟨ha, (Option.some.inj h).symm⟩
      · rename_i status value time ha
        split at h
        · rename_i hc
          exact .inr (.inl ⟨status, value, time, ha, hc, (Option.some.inj h).symm⟩)
        · cases h
      · rename_i a ha hact
        split at h
        · rename_i hi
          exact .inr (.inr (.inl ⟨a, ha, hact, .inl ⟨hi, (Option.some.inj h).symm⟩⟩))
        · split at h
          · rename_i hc
            exact .inr (.inr (.inl ⟨a, ha, hact, .inr ⟨hc, (Option.some.inj h).symm⟩⟩))
          · cases h
      · rename_i ha hact
        split at h
        · rename_i he
          exact .inr (.inr (.inr (.inl ⟨ha, hact, he, (Option.some.inj h).symm⟩)))
        · cases h
      · cases h
      · rename_i late held ha hact
        split at h
        · rename_i hb
          cases held
          · exact .inr (.inr (.inr (.inr (.inl ⟨late, ha, hact, hb, (Option.some.inj h).symm⟩))))
          · cases h
        · rename_i hb
          exact .inr (.inr (.inr (.inr (.inr
            ⟨late, held, ha, hact, by simpa using hb, (Option.some.inj h).symm⟩))))

/-- Everything an admission does: nothing on a channel with no bound ring; else the entry joins the bound ring's
list with the channel's seq and missed tally, which advance and return to 0 (R54, R104, R106). -/
theorem UnitView.admitted_cases (u : UnitView) (slot : SlotKind) (d : Draft) :
    u.ch.bound = none ∧ u.admitted slot d = u
      ∨ ∃ q, u.ch.bound = some q ∧ u.admitted slot d =
          { u with
            pool := u.pool.append q
              { slot := slot, entry := { draft := d, seq := u.ch.seq, missed := u.ch.missed } }
            ch := u.ch.afterAdmission } := by
  unfold UnitView.admitted
  cases h : u.ch.bound with
  | none => exact .inl ⟨rfl, rfl⟩
  | some q => exact .inr ⟨q, rfl, rfl⟩

/-- Everything a supersession does: the step ends SUPERSEDED, and where a CHAIN POSITION step follows a POSITION step
whose edge of the tick is not taken, the ended step counts that edge first (R43, R67). -/
theorem UnitView.supersede_cases (x : UnitContext) (a e : Step) (u : UnitView) :
    (e.record.start = 0 ∧ e.record.isKind .position = true ∧ u.ch.countStepDue x.clock = true
        ∧ u.supersede x a e = (u.countEdge x a.record).endActive x .superseded false)
      ∨ (¬ (e.record.start = 0 ∧ e.record.isKind .position = true ∧ u.ch.countStepDue x.clock = true)
        ∧ u.supersede x a e = u.endActive x .superseded false) := by
  unfold UnitView.supersede StepRecord.isChain
  by_cases h : (e.record.start == 0 && e.record.isKind .position && u.ch.countStepDue x.clock) = true
  · refine .inl ?_
    rw [if_pos h]
    simp only [Bool.and_eq_true, beq_iff_eq] at h
    exact ⟨h.1.1, h.1.2, h.2, rfl⟩
  · refine .inr ?_
    rw [if_neg h]
    simp only [Bool.and_eq_true, beq_iff_eq, and_assoc] at h
    exact ⟨h, rfl⟩

/-- The due edge of a POSITION step (R62): its tick is one of the step's, B rises or falls in it, and it has not been
taken. -/
theorem Channel.countStepDue_iff {ch : Channel} {e : Step} (h : ch.active = some e) (k : Clock) :
    ch.countStepDue k = true ↔ ch.edgeTaken = false ∧ (k.rises ch.bLine = true ∨ k.falls ch.bLine = true)
      ∧ ch.running = true ∧ e.record.isKind .position = true := by
  simp [Channel.countStepDue, Channel.runs, h, and_assoc]

/-- Everything the offer of a capture-class entry changes: the pool, and the channel's seq and missed tally (R54,
R104, R106). -/
theorem UnitView.offerCapture_frame (x : UnitContext) (body : EntryBody) (u : UnitView) :
    ∃ pool seq missed, u.offerCapture x body
      = { u with pool := pool, ch := { u.ch with seq := seq, missed := missed } } := by
  unfold UnitView.offerCapture UnitView.admitted
  split
  · cases u.ch.bound with
    | none => exact ⟨u.pool, u.ch.seq, u.ch.missed, rfl⟩
    | some q => exact ⟨_, _, _, rfl⟩
  · exact ⟨u.pool, u.ch.seq, _, rfl⟩

/-- Everything the count of an edge changes: the position and the edge's mark, the pool with the channel's seq and
missed tally, and at a threshold the threshold-event count and a CYCLE mark (R62 to R64). -/
theorem UnitView.countEdge_frame (x : UnitContext) (r : StepRecord) (u : UnitView) :
    ∃ pool seq missed, u.countEdge x r = { u with
      pool := pool
      emitted := u.emitted || (u.atThreshold x r && r.markCycle)
      ch := { u.ch with
        position := u.nextPosition x, edgeTaken := true, seq := seq, missed := missed
        thresholdCount := if u.atThreshold x r then u.ch.thresholdCount + 1 else u.ch.thresholdCount } } := by
  have wrapped : ∀ (b : Bool) (v : UnitView) (body : EntryBody), ∃ pool seq missed,
      (if b then v.offerCapture x body else v)
        = { v with pool := pool, ch := { v.ch with seq := seq, missed := missed } } := by
    intro b v body
    cases b
    · exact ⟨v.pool, v.ch.seq, v.ch.missed, rfl⟩
    · exact v.offerCapture_frame x body
  obtain ⟨p1, s1, m1, h1⟩ := wrapped
    (wraps x.wide (countsDown (x.clock.rises u.ch.bLine) (x.clock.before u.ch.aLine)) u.ch.position)
    { u with ch := { u.ch with position := u.nextPosition x, edgeTaken := true } }
    (.wrap r.tag (countsDown (x.clock.rises u.ch.bLine) (x.clock.before u.ch.aLine)))
  simp only [UnitView.countEdge, h1]
  cases u.atThreshold x r
  · exact ⟨p1, s1, m1, by simp⟩
  · obtain ⟨p2, s2, m2, h2⟩ := UnitView.offerCapture_frame x
      (.threshold r.tag (u.nextPosition x != r.top.toNat)
        (countsDown (x.clock.rises u.ch.bLine) (x.clock.before u.ch.aLine)) (u.nextPosition x))
      { u with
        pool := p1
        ch := { u.ch with position := u.nextPosition x, edgeTaken := true, seq := s1, missed := m1 } }
    simp only [if_true, h2, Bool.true_and]
    exact ⟨p2, s2, m2, rfl⟩

/-! ### A restart of the admin unit (R168) -/

/-- Everything a restart does with the admin unit's transaction: nothing without one that is live; its discard is set;
or, where its end falls in the tick, it leaves the port with discard clear and its answer is still to come (R168). -/
theorem Part.dropAdminTransaction_cases (p : Part) (k : Clock) (waiting : List Instr) :
    (¬ (p.port.carriesAdmin = true ∧ p.port.discard = false) ∧ p.dropAdminTransaction k waiting = p)
      ∨ p.port.carriesAdmin = true ∧ p.port.discard = false
        ∧ ∃ choices, p.dropAdminTransaction k waiting
              = { p with port := { p.port with discard := true }, choices := choices }
            ∨ p.port.endsInTick k waiting = true ∧ p.dropAdminTransaction k waiting
              = { p with port := { p.port.withdraws with current := none }, choices := choices } := by
  unfold Part.dropAdminTransaction
  by_cases h : (p.port.carriesAdmin && !p.port.discard) = true
  · have h' : p.port.carriesAdmin = true ∧ p.port.discard = false := by simpa using h
    refine .inr ⟨h'.1, h'.2, ?_⟩
    simp only [h, if_true]
    cases p.port.endsInTick k waiting
    · exact ⟨p.choices, .inl rfl⟩
    · cases p.port.endIsOpen k
      · exact ⟨p.choices, .inr ⟨rfl, rfl⟩⟩
      · cases Config.answersWithdrawn p.choices
        · exact ⟨p.choices + 1, .inr ⟨rfl, rfl⟩⟩
        · exact ⟨p.choices + 1, .inl rfl⟩
  · refine .inl ⟨fun hc => h (by simp [hc.1, hc.2]), ?_⟩
    simp [h]

end Sys2Proof.Machine
end

