-- ==== Sys2Proof/Tests/Slice0.lean ====
section
/-! SUPPORT. Small tests: the smoke tests of WellFormed and of the host words, single steps with results from the
spec's tables and worked sequences, and for each statement with hypotheses a state and operands that meet them. -/

open Sys2Proof Sys2Proof.Machine

namespace Sys2Proof.Tests

/-! ### Helpers -/

/-- A machine with the given part, in tick 0. -/
def machine (p : Part) : State := { State.reset with part := p }

/-- The part with a live transaction of the given kind on its port. -/
def carrying (k : TxKind) (p : Part) : Part :=
  { p with port := { p.port with
      current := some { kind := k, address := 0, data := 0, limit := 65536 }, discard := false } }

/-- The part with another channel context. -/
def withChan (c : ChanId) (ch : Channel) (p : Part) : Part := { p with chans := p.chans.set c ch }

/-- The part with another ring context. -/
def withRing (q : RingId) (r : Ring) (p : Part) : Part := { p with rings := p.rings.set q r }

/-- The part with another list of staged entries. -/
def withList (q : RingId) (l : List Staged) (p : Part) : Part :=
  { p with pool := { p.pool with lists := p.pool.lists.set q l } }

/-- An admin record from its parameter bytes, each with its byte number (spec 12.3). -/
def params (bytes : List (Nat × Nat)) : CommandRecord :=
  { zero1 := 0, tag := 0xBEEF
    body := bytes.foldl (fun b x => b ||| BitVec.ofNat 224 (x.2 * 2 ^ (8 * (x.1 - 4)))) 0 }

/-- A RUNNING device whose admin unit waits for its record, at the last slot of a ring of 16. -/
def running : Part :=
  { Part.reset with
    admin := { Admin.reset with unit := .fetching, ringSize := 16, fetchIndex := 15, tail := 5, acqSize := 8 }
    device := { Part.reset.device with state := .running } }

/-- The part as an admin record finds it. -/
def admin : Part := carrying .adminRead running

/-- A record of a kind with a top, an mark on every event and all else zero (spec 12.1). -/
def record (kind : Nat) (top : Nat) : StepRecord :=
  { StepRecord.ofBytes 0 with kind := BitVec.ofNat 8 kind, top := BitVec.ofNat 32 top }

/-- An open channel of class OUTPUT on lines 3 and 4, at the last slot of a ring of four. -/
def output : Channel :=
  { Channel.reset with
    state := .idle, cls := some .output, bLine := some 3, aLine := some 4, bound := some 1
    ringSize := 4, fetchIndex := 3, tail := 1 }

/-- An open channel of class INPUT on the same lines. -/
def input : Channel := { output with cls := some .input }

/-- The channel with step `r` active and running, in the last tick before its counter acts on `counter`. -/
def active (ch : Channel) (r : StepRecord) (counter : Nat) : Channel :=
  { ch with state := .active, active := some ⟨2, r⟩, running := true, counter := counter }

/-- A READY ring of 16 slots. -/
def ring : Ring := { Ring.reset with state := .ready, size := 16 }

/-- A STEP_DONE of channel `c` in a slot. -/
def done (slot : SlotKind) (c : ChanId) (status : DoneStatus) : Staged :=
  { slot := slot
    entry :=
      { draft := { channel := c, time := 0, body := endedBody output ⟨2, record 1 3⟩ status }
        seq := 0, missed := 0 } }

/-- A long STEP_DONE of channel 0, in a shared slot. -/
def long : Staged :=
  { slot := .shared
    entry :=
      { draft :=
          { channel := 0, time := 0
            body := endedBody input ⟨2, { record 7 3 with summary := true }⟩ .done }
        seq := 0, missed := 0 } }

/-- A pool with every shared slot occupied and the reserved slot of channel 0 too. -/
def crowded (p : Part) : Part :=
  withList 1 (List.replicate 24 (done .shared 0 .done) ++ [done .reserved 0 .done]) p

/-- A pool with every shared slot occupied and every reserved slot empty. -/
def filled (p : Part) : Part := withList 1 (List.replicate 24 (done .shared 0 .done)) p

/-- The machine one tick after a tick in which every line was low, with every pin now high. -/
def rising (p : Part) : State :=
  { machine p with tb := 1, sample := samplePins 0xFFFF, previous := some (samplePins 0), pins := 0xFFFF }

/-! ### WellFormed: each check refuses an ill-formed term -/

theorem test_bad_opcode_needs_an_unknown_opcode :
    (Instr.badOpcode 14 (params [])).wellFormed = false ∧ (Instr.badOpcode 15 (params [])).wellFormed = true
      ∧ (Instr.badOpcode 1 (params [])).wellFormed = false ∧ (Instr.badOpcode 0 (params [])).wellFormed = true := by
  decide

theorem test_ignored_write_needs_an_ignored_word :
    (Instr.ignoredRegisterWrite .cfgbase 0).wellFormed = false
      ∧ (Instr.ignoredRegisterWrite .devctl 3).wellFormed = false
      ∧ (Instr.ignoredRegisterWrite .devctl 4).wellFormed = true := by decide

theorem test_devstat_write_needs_its_bit :
    (Instr.devstatWrite 0xFFFFFEFF).wellFormed = false ∧ (Instr.devstatWrite 0x100).wellFormed = true := by decide

theorem test_intstat_write_needs_a_pending_bit :
    (Instr.intstatWrite 0xFFFFFFE0).wellFormed = false ∧ (Instr.intstatWrite 0x10).wellFormed = true := by decide

theorem test_ill_formed_terms_are_refused :
    exec (.badOpcode 5 (params [])) State.reset = .refused (.notThisCommand "BAD_OPCODE")
      ∧ exec (.ignoredRegisterWrite .post 0) State.reset
          = .refused (.notThisCommand "IGNORED_REGISTER_WRITE") := ⟨rfl, rfl⟩

/-! ### Host words, written out from spec 12.3 and 12.5 -/

/-- POST of ring id 5 with index 0x0123: the id in bits 24 to 27. -/
theorem test_post_step_tail_word :
    decodeHostWord (.write .post 0x05000123) = .postStepTail 5 0x0123 := by decide

theorem test_post_ring_ids_14_and_15 :
    decodeHostWord (.write .post 0xFEAA0007) = .postRingId1415 false 7
      ∧ decodeHostWord (.write .post 0x0F000007) = .postRingId1415 true 7 := by decide

theorem test_post_head_words :
    decodeHostWord (.write .post 0x0B00000F) = .postCqHead 3 15
      ∧ decodeHostWord (.write .post 0x0C000001) = .postAdminTail 1
      ∧ decodeHostWord (.write .post 0x0D000001) = .postAcqHead 1 := by decide

theorem test_devctl_words :
    decodeHostWord (.write .devctl 1) = .enable ∧ decodeHostWord (.write .devctl 2) = .restartAdmin
      ∧ decodeHostWord (.write .devctl 3) = .reset := by decide

/-- A CH_HALT record: opcode 7, tag 0xBEEF, channel 5, mode 1, deadline 0x10. -/
theorem test_ch_halt_record :
    decodeHostWord (.adminRecord 0x1000000105BEEF0007) = .chHalt (params [(4, 5), (5, 1), (8, 16)]) := by decide

/-! ### Single steps, with results from the spec -/

/-- R169: DEVID holds vendor 0x57, part 0x0816, revision 1. -/
theorem test_devid : State.reset.readRegister .devid = 0x57081601 := by decide

/-- R130: with no context pending and enabled TOP is 7. -/
theorem test_intstat_at_reset : State.reset.readRegister .intstat = 0x00070000 := by decide

/-- R68: TB wraps from 2^48 - 1 to 0. -/
theorem test_tick_wraps_tb :
    (match exec (.tick 0) { State.reset with tb := 0xFFFFFFFFFFFF } with
      | .next t => t.tb
      | _ => 1) = 0 := by decide

/-- R38: with w = 2 and cmp = 1, 2 the pulses stand in the order 0, 2, 1, 3. -/
theorem test_pdm_spreads_its_pulses :
    (List.range 4).map (fun n => { record 4 3 with cmp := 1 }.bLevel n true) = [true, false, false, false]
      ∧ (List.range 4).map (fun n => { record 4 3 with cmp := 2 }.bLevel n true)
          = [true, false, true, false] := by decide

/-- R62: B rises while A was low before the edge: the position counts up; from the greatest value it wraps to 0. -/
theorem test_position_wraps_up :
    stepPosition false (countsDown true false) 65535 = 0 ∧ stepPosition true (countsDown true false) 65535 = 65536
      ∧ stepPosition false (countsDown true true) 0 = 65535 ∧ stepPosition false (countsDown false false) 7 = 6 := by
  decide

/-- R115 and spec 12.2: the first slot of a STEP_DONE DONE of channel 5 in a first pass: type 2, phase 1. -/
theorem test_step_done_slot :
    ((done .shared 5 .done).entry.partBytes .single true).extractLsb' 0 16 = 0x0582 := by decide

/-- R113: from head 14 of a ring of 16, index 1 lies three slots on. -/
theorem test_forward_distance_wraps : forward 14 1 16 = 3 := by decide

/-- R160: the channel asks for the slot at its fetch index, also where its active step was read from it, and no longer
once the tail is there. -/
theorem test_a_held_slot_is_read_again :
    { active output (record 3 7) 3 with fetchIndex := 2, tail := 1 }.eligible = true
      ∧ { active output (record 3 7) 3 with fetchIndex := 3, tail := 1 }.eligible = true
      ∧ { active output (record 3 7) 3 with fetchIndex := 1, tail := 1 }.eligible = false := by decide

/-- R65, R67: the value of every POSITION STEP_DONE is the position register; R13, R79: a step of another kind that ran
for no ticks has the value 0. -/
theorem test_a_position_step_reports_the_register :
    let ch := { input.startCounts (record 7 3) with position := 4 }
    ch.stepValue (record 11 7) = 4 ∧ ch.stepValue (record 7 3) = 0 ∧ ch.stepValue (record 3 7) = 0 := by decide

/-- R88, R84: a HOLD step that an IMMEDIATE halt ends by a later event of the tick it started in leaves the drives that
its start set. -/
theorem test_a_later_event_leaves_the_drives_of_the_start :
    let p := withChan 5 { active output (record 3 7) 0 with running := false } admin
    let set := { p with lines := setDrives p.lines output .high .none }
    (match exec (.chHalt (params [(4, 5), (5, 1)])) (machine set) with
      | .next t => (t.part.lines[(3 : LineId)].drive, t.part.lines[(4 : LineId)].drive)
      | _ => (.none, .none)) = (.high, .none) := by decide +kernel

/-- R168: a restart in the tick of the admin read's answer finds the transaction ended, discards nothing and asks for
the configuration read at once; the answer goes to no block. With the answer in a later tick, discard is set. -/
theorem test_a_restart_in_the_tick_of_the_answer :
    let s (l : List Instr) : State := { machine admin with pending := l }
    (match exec .restartAdmin (s [.enable, .adminReadError]) with
      | .next t => (t.part.port.current.map Transaction.kind, t.part.port.discard,
          match exec .adminReadError t with | .next u => u.part.device.state | _ => .disabled)
      | _ => (none, true, .disabled)) = (some .configRead, false, .starting)
    ∧ (match exec .restartAdmin (s [.tick 0, .adminReadError]) with
      | .next t => (t.part.port.current.map Transaction.kind, t.part.port.discard)
      | _ => (none, false)) = (some .adminRead, true) := by decide +kernel

/-- R161: the late answer to a withdrawn step read of channel 5 does not reach the admin unit or any channel. -/
theorem test_a_late_answer_is_ignored :
    exec (.stepReadReturn 0) (machine { admin with port := { admin.port with withdrawn := [.stepRead 5] } })
      = .next (machine admin) := rfl

/-- R43, R67: a POSITION step that a CHAIN POSITION step supersedes in a tick in which B rises counts that edge first;
the step behind it does not count it again. -/
theorem test_no_edge_is_lost_at_a_handover :
    let r := { record 11 9 with cmp := 9 }
    let ch := { active input r 0 with position := 4, fetchInFlight := true }
    let s := rising (carrying (.stepRead 0) (withChan 0 ch running))
    let value (st : Staged) := match st.entry.draft.body with | .stepDone b => b.value | _ => 0
    (match exec (.stepReadReturn r.toBytes) s with
      | .next t => (t.part.pool.lists[(1 : RingId)].map value,
        match exec (.countStep 0) t with
        | .next u => (u.part.chans[(0 : ChanId)].active.map Machine.Step.index, u.part.chans[(0 : ChanId)].position)
        | _ => (none, 0))
      | _ => ([], none, 0)) = ([5], some 3, 5) := by decide +kernel

/-- R81: the timeout of a waiting step is never taken before a mark for want of a shared effect. -/
theorem test_a_mark_timeout_is_never_preferred :
    Part.reset.orderIsIdle State.reset.clock (.markTimeout 0) = false := by decide

/-! ### The machine's statements -/

theorem witness_StepRunsTheFrontCommand :
    ({ State.reset with pending := [.enable, .tbloRead] } : State).pending = .enable :: [.tbloRead] := by decide

theorem witness_EveryCommandRuns :
    (Instr.badOpcode 15 (params [])).wellFormed = true ∧ knownOpcode 14 = true ∧ knownOpcode 1 = true
      ∧ ignoredWrite .devctl 3 = false ∧ State.reset.pending = [] := by decide

theorem witness_HostWordsRoundTrip :
    (Instr.postCqHead 3 0xFFFF).wellFormed = true
      ∧ encodeHostWord (.postCqHead 3 0xFFFF) = some (.write .post 0x0B00FFFF) := by decide

theorem witness_HostWordsDecodeWellFormed :
    HostWord.write .cfgbase 0x3F = .write .cfgbase 0x3F ∧ Reg.cfgbase ≠ .devctl ∧ Reg.cfgbase ≠ .post
      ∧ HostWord.write .post 0xF0FF0000 = .write .post 0xF0FF0000
      ∧ HostWord.adminRecord 0xFF = .adminRecord 0xFF := by decide

theorem witness_PdmCycleHoldsCmpHighTicks :
    { record 4 3 with cmp := 4 }.kindOf = some .pdm ∧ (record 4 3).top.toNat + 1 = 2 ^ 2
      ∧ { record 4 3 with cmp := 4 }.cmp.toNat ≤ 2 ^ 2
      ∧ (record 4 0xFFFFFFFF).top.toNat + 1 = 2 ^ 32 := by decide

theorem witness_LevelsFollowTheKind :
    (record 1 3).kindOf = some .tone ∧ (record 5 3).kindOf = some .chime ∧ (record 2 3).kindOf = some .strobe
      ∧ (record 3 3).kindOf = some .pwm ∧ (record 6 3).kindOf = some .level
      ∧ (record 3 3).aFunction = 0 ∧ { record 3 3 with aFunction := 1 }.aFunction = 1
      ∧ { record 3 3 with aFunction := 2 }.aFunction = 2 ∧ { record 3 3 with aFunction := 3 }.aFunction = 3 := by
  decide

theorem witness_EdgesAndGatesFollowTheKind :
    input.bLine = some 3 ∧ input.aLine = some 4 ∧ (record 7 3).kindOf = some .period
      ∧ (record 8 3).kindOf = some .width ∧ (record 9 3).kindOf = some .phase := by decide

/-- A PWM record at the edge of R30: top 65535, cmp 65536, and a PERIOD record at the edge of R50. -/
theorem witness_RecordsAreAcceptedExactly :
    validate output false { record 3 65535 with cmp := 65536, prescale := 8 } = none
      ∧ { record 3 65535 with cmp := 65536 }.kindOf = some .pwm
      ∧ validate input false { record 7 65535 with polarity := 2 } = none ∧ (record 7 1).kindOf = some .period
      ∧ input.cls.isSome = true := by decide

/-- A record of each of the eleven kinds that is accepted, at the bounds of R30 and R50. -/
theorem witness_RecordsAreAcceptedExactly_kinds :
    (∀ r ∈ [record 1 65535, { record 2 7 with cmp := 7 }, { record 3 7 with cmp := 8 },
        { record 4 65535 with cmp := 65536 }, { record 5 3 with aFunction := 3 }, { record 6 1 with polarity := 2 }],
      r.kindOf.isSome = true ∧ validate output false r = none)
      ∧ (∀ r ∈ [{ record 7 1 with polarity := 1 }, { record 8 1 with polarity := 2 }, record 9 1,
          { record 10 65535 with polarity := 1, strikes := 15 }, { record 11 0 with cmp := 65535, zeroPos := true }],
        r.kindOf.isSome = true ∧ validate input false r = none)
      ∧ output.cls.isSome = true ∧ input.cls.isSome = true := by decide

/-- For each check of R9 a record that fails it, with a later check failing too. -/
theorem witness_RecordsAreAcceptedExactly_codes :
    validate output false (record 12 0) = some 1 ∧ (record 12 0).kindOf = none
      ∧ validate output false (record 7 0) = some 2
      ∧ validate { input with aLine := none } false { record 9 0 with prescale := 9 } = some 3
      ∧ validate output false { record 1 0 with prescale := 9 } = some 4
      ∧ validate output false { record 4 2 with prescale := 9 } = some 5
      ∧ validate output false { record 4 2 with start := 4 } = some 6
      ∧ validate output false { record 1 1 with start := 4, zeroMid := 1 } = some 7
      ∧ validate output false { record 1 1 with strikes := 1, aFunction := 3 } = some 8
      ∧ validate output false { record 1 1 with aFunction := 3 } = some 9 := by decide

theorem witness_HardResetSetsEveryBlock :
    ∃ tx ∈ (machine admin).part.port.current, tx.limit ≠ (machine admin).tb :=
  ⟨_, rfl, by decide⟩

theorem witness_DeviceControlStartsTheDevice :
    State.reset.part.device.state = .disabled ∧ admin.device.state ≠ .disabled ∧ admin.device.state = .running
      ∧ (admin.adminFaults .acqWrite).device.state = .adminFault := by decide

/-- A restart with an admin read outstanding: an answer comes in the tick, or the response limit expires in it, or
neither; and the answer could be a late one. -/
theorem witness_DeviceControlStartsTheDevice_transaction :
    let t : Transaction := ⟨.adminRead, 0, 0, 65536⟩
    let l : List Instr := [.enable, .nop (params [])]
    admin.port.current = some t ∧ admin.port.discard = false ∧ t.limit ≠ (machine admin).tb
      ∧ { machine admin with tb := 65536 }.tb = t.limit ∧ l = [.enable] ++ .nop (params []) :: []
      ∧ answerComes l t.kind = true ∧ answerComes (.tick 0 :: l) t.kind = false
      ∧ t.kind ∉ admin.port.withdrawn ∧ t.kind ∈ { admin.port with withdrawn := [.adminRead] }.withdrawn
      ∧ running.port.current = none := by decide

theorem witness_RegisterCommandsSetTheirFields :
    (0x100 : Word32).getLsbD 8 = true ∧ (0x10 : Word32).getLsbD (4 : NoticeId) = true
      ∧ ignoredWrite .tbhi 0xFFFFFFFF = true := by decide

theorem witness_TbloReadsLatchTheTimeBase :
    (∃ t, exec .reset State.reset = .next t) ∧ Instr.reset ≠ .tbloRead ∧ (∀ pins, Instr.reset ≠ .hardReset pins) :=
  ⟨⟨_, rfl⟩, (by intro h; cases h), (by intro _ h; cases h)⟩

theorem witness_InterruptLineShowsTheCondition :
    (∃ t, exec (.tick 0) State.reset = .next t) ∧ (∃ t, exec (.hardReset 0) State.reset = .next t)
      ∧ (∃ t, exec .reset State.reset = .next t) ∧ (∀ pins, Instr.reset ≠ .tick pins)
      ∧ (∀ pins, Instr.reset ≠ .hardReset pins) := by
  refine ⟨⟨_, rfl⟩, ⟨_, rfl⟩, ⟨_, rfl⟩, ?_, ?_⟩ <;> intros <;> intro h <;> cases h

/-! ### POST -/

theorem witness_ValidPostIsApplied_tail :
    output.state ≠ .closed ∧ output.state ≠ .subordinate ∧ (withChan 7 output running).chans[(7 : ChanId)] = output
      ∧ (3 : BitVec 16).toNat < output.ringSize := by decide

theorem witness_ValidPostIsApplied_head :
    let r : Ring := { ring with hostHead := 14, writeIndex := 1, outstanding := 3 }
    r.state ≠ .absent ∧ (1 : BitVec 16).toNat < r.size
      ∧ ((1 : BitVec 16).toNat + r.size - r.hostHead) % r.size ≤ r.outstanding := by decide

theorem witness_ValidPostIsApplied_admin :
    running.device.state = .running ∧ (15 : BitVec 16).toNat < running.admin.ringSize
      ∧ (0 : BitVec 16).toNat < running.admin.acqSize
      ∧ ((0 : BitVec 16).toNat + running.admin.acqSize - running.admin.acqHead) % running.admin.acqSize
          ≤ running.admin.acqOutstanding := by decide

theorem witness_InvalidPostIsRecorded :
    Part.reset.chans[(0 : ChanId)].state = .closed ∧ output.ringSize ≤ (4 : BitVec 16).toNat
      ∧ Part.reset.rings[(0 : RingId)].state = .absent ∧ ring.size ≤ (16 : BitVec 16).toNat
      ∧ ring.outstanding < ((1 : BitVec 16).toNat + ring.size - ring.hostHead) % ring.size
      ∧ Part.reset.device.state ≠ .running ∧ Part.reset.device.state ≠ .adminFault
      ∧ running.admin.ringSize ≤ (16 : BitVec 16).toNat ∧ running.admin.acqSize ≤ (8 : BitVec 16).toNat
      ∧ running.admin.acqOutstanding
          < ((7 : BitVec 16).toNat + running.admin.acqSize - running.admin.acqHead) % running.admin.acqSize := by
  decide

/-! ### Administrative commands -/

theorem witness_answers_adminRead : (machine admin).part.port.answers .adminRead := by decide

theorem witness_CompletionComposesTheEntry :
    ((machine admin).taken 1 (params [])).admin.current = some ⟨1, params [], 15⟩
      ∧ 15 < ((machine admin).taken 1 (params [])).admin.ringSize := by decide

/-- Spec 12.3: CQ_RESET names bit 0 of byte 5 and no other bit of it; CH_OPEN names byte 17 and not byte 18. -/
theorem test_named_bits :
    (params [(4, 1), (5, 1)]).zerosHold 4 = true ∧ (params [(4, 1), (5, 2)]).zerosHold 4 = false
      ∧ (params [(4, 1), (5, 2)]).body.getLsbD (8 * (5 - 4) + 1) = true
      ∧ (params [(17, 128)]).zerosHold 6 = true ∧ (params [(18, 1)]).zerosHold 6 = false := by decide

theorem witness_NopAndRefusalsComplete :
    (params []).zerosHold 1 = true ∧ knownOpcode 0 = false ∧ knownOpcode 15 = false
      ∧ (params [(31, 128)]).body &&& ~~~(namedBits 2) ≠ 0 ∧ { params [] with zero1 := 1 }.zero1 ≠ 0
      ∧ (params [(4, 4)]).zerosHold 2 = true ∧ 4 ≤ (params [(4, 4)]).byte 4
      ∧ (params [(4, 8)]).zerosHold 13 = true ∧ 8 ≤ (params [(4, 8)]).byte 4
      ∧ (params [(4, 7)]).zerosHold 11 = true ∧ (params [(4, 7)]).byte 4 % 2 = 1 := by decide

/-- CQ_CREATE of ring 3: 16 slots that end at 2^32, threshold 64, level 3. -/
def createRecord : CommandRecord :=
  params [(4, 3), (5, 1), (6, 3), (7, 64), (8, 0xFFFFFE00), (12, 16), (14, 65535)]

theorem witness_CqCreateChecksAndCreates :
    createRecord.zerosHold 2 = true ∧ createRecord.byte 4 = (3 : RingId).val
      ∧ firstFailing
          [ (legalSize 16 4096 (createRecord.half 12), .badParam)
          , (decide ((createRecord.word 8).toNat % 32 = 0
              ∧ (createRecord.word 8).toNat + createRecord.half 12 * 32 ≤ 2 ^ 32), .badParam)
          , (decide (1 ≤ createRecord.byte 7 ∧ createRecord.byte 7 ≤ 64 ∧ createRecord.byte 6 ≤ 3), .badParam)
          , (decide (((machine admin).taken 2 createRecord).rings[(3 : RingId)].state = .absent), .badState) ]
        = .ok := by decide

theorem witness_CqDeleteChecksAndDeletes :
    let p := (machine (withRing 3 ring admin)).taken 3 (params [(4, 3)])
    (params [(4, 3)]).zerosHold 3 = true ∧ p.rings[(3 : RingId)].state = .ready
      ∧ (∀ c : ChanId, p.chans[c].bound ≠ some 3) ∧ p.pool.lists[(3 : RingId)] = []
      ∧ admin.rings[(3 : RingId)].state ≠ .ready := by decide

theorem witness_CqResetRestartsOrWaits :
    let r := params [(4, 3), (5, 1), (8, 0xFFFFFE00)]
    r.zerosHold 4 = true ∧ r.byte 4 = (3 : RingId).val ∧ (r.word 8).toNat + ring.size * 32 ≤ 2 ^ 32
      ∧ (r.word 8).toNat % 32 = 0 ∧ ring.state ≠ .absent ∧ ring.inFlight = false
      ∧ { ring with inFlight := true }.inFlight = true := by decide

theorem witness_CqNoticeChecksAndSets :
    let r := params [(4, 4), (7, 64), (6, 3)]
    r.zerosHold 5 = true ∧ r.byte 4 = (4 : NoticeId).val ∧ 1 ≤ r.byte 7 ∧ r.byte 7 ≤ 64 ∧ r.byte 6 ≤ 3
      ∧ ¬ (1 ≤ (params [(4, 4), (7, 65)]).byte 7 ∧ (params [(4, 4), (7, 65)]).byte 7 ≤ 64) := by decide

/-- CH_OPEN of channel 7, class OUTPUT, lines 15 and 14, ring 3, four slots, fetch index 3. -/
def openRecord : CommandRecord :=
  params [(4, 7), (5, 1), (6, 15), (7, 14), (8, 1), (9, 3), (10, 4), (12, 64), (16, 3)]

theorem witness_ChOpenChecksAndOpens :
    let p := (machine (withRing 3 ring admin)).taken 6 openRecord
    openRecord.zerosHold 6 = true ∧ openRecord.byte 4 = (7 : ChanId).val ∧ openRecord.byte 5 = 1
      ∧ openRecord.byte 9 < 4 ∧ legalSize 4 1024 (openRecord.half 10) = true
      ∧ (openRecord.word 12).toNat % 32 = 0 ∧ (openRecord.word 12).toNat + openRecord.half 10 * 32 ≤ 2 ^ 32
      ∧ openRecord.half 16 < openRecord.half 10 ∧ openRecord.byte 6 < 16 ∧ openRecord.bit 8 = true
      ∧ openRecord.byte 7 < 16 ∧ openRecord.byte 7 ≠ openRecord.byte 6
      ∧ p.chans[(7 : ChanId)].state = .closed ∧ p.chans[(7 : ChanId)].pendingReport = none
      ∧ p.rings[(Fin.ofNat 4 (openRecord.byte 9) : RingId)].state = .ready
      ∧ (∀ i ∈ ([15, 14] : List LineId), p.lines[i].owner = none) := by decide

theorem witness_HaltAndCloseOfAStoppedChannel :
    (params [(4, 7), (5, 1)]).zerosHold 7 = true ∧ (params [(4, 7), (5, 1)]).byte 4 = (7 : ChanId).val
      ∧ (params [(4, 7), (5, 2)]).byte 5 = 2 ∧ (params [(4, 7), (5, 3)]).byte 5 ≠ 1
      ∧ (params [(4, 7), (5, 3)]).byte 5 ≠ 2 ∧ admin.chans[(7 : ChanId)].state = .closed
      ∧ (withChan 7 { output with state := .stopped } admin).chans[(7 : ChanId)].state = .stopped
      ∧ (∀ i, output.bLine = some i → output.aLine ≠ some i) := by decide

theorem witness_HaltWithNothingActiveFlushes :
    (params [(4, 0), (5, 1), (8, 0xFFFFFFFF)]).zerosHold 7 = true ∧ output.state = .idle ∧ output.active = none
      ∧ output.bound = some 1 ∧ admin.pool.hasShared = true
      ∧ (crowded (withChan 0 output admin)).pool.hasShared = false
      ∧ (crowded (withChan 0 output admin)).pool.reservedBusy 0 = true := by decide

theorem witness_HaltOfAnActiveChannel :
    let ch := active output (record 3 7) 3
    (params [(4, 7), (5, 2)]).byte 5 = 2 ∧ ch.state = .active ∧ ch.active = some ⟨2, record 3 7⟩
      ∧ (record 3 7).isKind .position = false ∧ ch.halt = none ∧ ch.bound = some 1
      ∧ (withChan 7 ch admin).chans[(7 : ChanId)] = ch := by decide

/-- A channel whose BOUNDARY request for CH_HALT stands, and a CH_CLOSE or CH_HALT that merges with it. -/
theorem witness_HaltsMerge :
    let h : HaltRequest := { close := false, boundary := true, deadline := true, flushed := 3, firstTag := 9 }
    let ch := { active output (record 3 7) 3 with halt := some h }
    (params [(4, 7), (5, 2)]).byte 5 = 2 ∧ ch.state = .active ∧ ch.active = some ⟨2, record 3 7⟩
      ∧ (∀ x ∈ ch.halt, x.boundary = true) ∧ (params [(4, 7), (5, 1)]).byte 5 = 1 ∧ ch.bound = some 1 := by decide

/-- A POSITION step that a CH_HALT in BOUNDARY mode ends at once. -/
theorem witness_BoundaryHaltOfAPositionStep :
    (params [(4, 7), (5, 2)]).byte 5 = 2 ∧ (record 11 7).isKind .position = true
      ∧ (active input (record 11 7) 0).active = some ⟨2, record 11 7⟩
      ∧ (active input (record 11 7) 0).state = .active ∧ (active input (record 11 7) 0).bound = some 1 := by decide

theorem witness_ChResumeChecksAndResumes :
    let r := params [(4, 7), (16, 3)]
    let ch := { output with state := .stopped }
    r.zerosHold 9 = true ∧ r.byte 4 = (7 : ChanId).val ∧ r.half 16 < ch.ringSize ∧ ch.state = .stopped
      ∧ ch.pendingReport = none ∧ output.state ≠ .stopped := by decide

theorem witness_ChReadReturnsTheSnapshot :
    let ch : Channel := { active output (record 11 7) 3 with
      ringSize := 1024, fetchIndex := 1023, tail := 1023
      queue := [⟨1020, record 11 7⟩, ⟨1021, record 11 7⟩, ⟨1022, record 11 7⟩] }
    (params [(4, 7)]).zerosHold 10 = true ∧ ch.fetchIndex < 1024 ∧ ch.tail < 1024 ∧ ch.window.length ≤ 4
      ∧ ch.active = some ⟨2, record 11 7⟩ ∧ (record 11 7).kind.toNat < 16 ∧ output.active = none := by decide

theorem witness_PairCommandsJoinAndSplit :
    (params [(4, 6)]).zerosHold 11 = true ∧ (params [(4, 6)]).byte 4 = 2 * (3 : Fin 4).val
      ∧ admin.chans[evenOf 3].state = .closed ∧ admin.chans[oddOf 3].state = .closed
      ∧ admin.chans[oddOf 3].pendingReport = none
      ∧ ({ admin with pairs := admin.pairs.set 3 true } : Part).pairs[(3 : Fin 4)] = true := by decide

theorem witness_PosSetAndLineParkCheckAndSet :
    (params [(4, 6), (8, 65535)]).zerosHold 13 = true ∧ input.state ≠ .closed ∧ input.state ≠ .subordinate
      ∧ input.cls = some .input ∧ ((params [(4, 6), (8, 65535)]).word 8).toNat ≤ 65535
      ∧ (params [(4, 15), (5, 3)]).zerosHold 14 = true ∧ (params [(4, 15), (5, 3)]).byte 4 = (15 : LineId).val
      ∧ 15 < (params [(4, 16), (5, 3)]).byte 4 ∧ 3 < (params [(4, 15), (5, 4)]).byte 5 := by decide

/-! ### The port and its answers -/

/-- The part with an idle port and the given requesters. -/
def asking (acq entry step : Bool) : Part :=
  let p := withRing 1 ring (withChan 0 (if step then output else Channel.reset) running)
  let p1 := if entry then withList 1 [done .shared 0 .done] p else p
  { p1 with admin := { p1.admin with
      unit := if acq then .posting else .idle
      completion := some { opcode := 1, status := .ok, tag := 0, adminHead := 0, results := ⟨0, 0, 0, 0⟩ } } }

theorem witness_ArbiterGrantsInOrder_acq :
    admin.port.current.isSome = true ∧ (asking true true true).port.current = none
      ∧ (asking true true true).admin.asksWrite.isSome = true := by decide

theorem witness_ArbiterGrantsInOrder_entry :
    let p := asking false true true
    p.admin.asksWrite = none ∧ p.ringAsks 1 = some ((done .shared 0 .done).entry, .single)
      ∧ (∀ d : RingId, p.ringAsks d ≠ none →
          ((1 : RingId) - (p.port.writePointer + 1)).val ≤ (d - (p.port.writePointer + 1)).val) := by decide

theorem witness_ArbiterGrantsInOrder_step :
    let p := asking false false true
    p.admin.asksWrite = none ∧ (∀ q : RingId, p.ringAsks q = none) ∧ p.chans[(0 : ChanId)].eligible = true
      ∧ (∀ d : ChanId, p.chans[d].eligible = true →
          ((0 : ChanId) - (p.port.fetchPointer + 1)).val ≤ (d - (p.port.fetchPointer + 1)).val) := by decide

theorem witness_ArbiterGrantsInOrder_admin :
    let p := asking false false false
    p.admin.asksWrite = none ∧ (∀ q : RingId, p.ringAsks q = none)
      ∧ (∀ c : ChanId, p.chans[c].eligible = false) ∧ p.asksAdminRead = true := by decide

theorem witness_GrantsSetTheTransaction :
    (withList 1 [long] (withRing 1 { ring with writeIndex := 15, outstanding := 12 } running)).ringAsks 1
        = some (long.entry, .pad)
      ∧ (withList 1 [long] (withRing 1 { ring with outstanding := 13 } running)).ringAsks 1
        = some (long.entry, .longFirst)
      ∧ (withList 1 [long] (withRing 1 { ring with outstanding := 14, halfWritten := true } running)).ringAsks 1
        = some (long.entry, .stats) := by decide

/-- The channel's record read is outstanding. -/
def reading (ch : Channel) : Part := carrying (.stepRead 0) (withChan 0 { ch with fetchInFlight := true } running)

theorem witness_ReadsJoinTheWindow :
    let ch := { active output (record 3 7) 3 with queue := [⟨2, record 3 7⟩], armed := .good }
    (machine (reading ch)).part.port.answers (.stepRead 0) ∧ ch.state = .active
      ∧ ch.active = some ⟨2, record 3 7⟩ ∧ ch.queue = ⟨2, record 3 7⟩ :: [] ∧ ch.armed = .good ∧ ch.halt = none
      ∧ ch.stale = false ∧ (record 3 7).start ≠ 1
      ∧ ¬ ((record 3 7).kindOf = some .position ∧ (record 3 7).count = 0) := by decide

/-- A WAITING channel, and HELD ones with every slot occupied, behind whose steps a record joins. -/
theorem witness_ReadsJoinTheWindow_waiting :
    let ch := { output with queue := [⟨2, record 3 7⟩] }
    let p := crowded running
    ch.active = none ∧ ch.queue = ⟨2, record 3 7⟩ :: [] ∧ ch.halt = none ∧ ch.stale = false
      ∧ { ch with evaluation := .atTime 9 }.evaluation ≠ .none ∧ ch.evaluation = .none
      ∧ p.pool.reservedBusy 0 = true ∧ p.pool.hasShared = false
      ∧ { ch with armed := .removal .badStep 4 0 }.armed = .removal .badStep 4 0 := by decide

/-- AT_TIME and ON_MARK POSITION records that pass validation behind a continuous POSITION step. -/
theorem witness_ReadsArriveBehindAPositionStep :
    let b := active input (record 11 7) 0
    let at_ (start : Ticks) (strict : Bool) := { record 11 7 with start := 2, startTime := start, strict := strict }
    validate b false (at_ 1 false) = none ∧ validate b false (at_ 2 true) = none ∧ validate b false (at_ 0 true) = none
      ∧ validate b false { record 11 7 with start := 3, markSource := 2, startTimeout := 9 } = none
      ∧ ((0 : Ticks) - (State.reset.tb + 1)).toNat = 281474976710655 ∧ b.running = true ∧ b.edgeTaken = false
      ∧ (rising running).clock.rises b.bLine = true := by decide

/-- A STOPPED channel with a record read in flight. -/
def stoppedReading : Channel := { output with state := .stopped, fetchInFlight := true }

theorem witness_ReadsAreDiscarded : stoppedReading.Law := by decide

theorem witness_StepStartsOnAnIdleChannel :
    let p := (reading output).endTransaction
    (machine (reading output)).part.port.answers (.stepRead 0) ∧ p.chans[(0 : ChanId)].state = .idle
      ∧ output.active = none ∧ output.queue = [] ∧ output.armed = .none ∧ output.halt = none
      ∧ output.evaluation = .none ∧ output.stale = false ∧ output.fetchFault = false
      ∧ p.pool.reservedBusy 0 = false ∧ validate output (p.wide 0) { record 3 7 with start := 1 } = none
      ∧ validate output (p.wide 0) (record 3 7) = none := by decide

/-- A record read that returns behind an active step with nothing armed: a step that waits, one that preempts, one
that supersedes a continuous POSITION step, and a bad one; with a shared slot free and with none. -/
theorem witness_ReadsArriveBehindAnActiveStep :
    let a := active output (record 3 7) 3
    let b := active input (record 11 7) 0
    let p := (reading a).endTransaction
    (machine (reading a)).part.port.answers (.stepRead 0) ∧ a.state = .active ∧ a.active = some ⟨2, record 3 7⟩
      ∧ a.queue = [] ∧ a.armed = .none ∧ a.halt = none ∧ a.evaluation = .none ∧ a.stale = false ∧ a.bound = some 1
      ∧ validate a (p.wide 0) (record 3 7) = none ∧ (record 3 7).start ≠ 1 ∧ (record 3 7).kindOf ≠ some .position
      ∧ validate a (p.wide 0) { record 3 7 with start := 1 } = none
      ∧ b.active = some ⟨2, record 11 7⟩ ∧ (record 11 7).kindOf = some .position ∧ (record 11 7).count = 0
      ∧ (record 11 7).start = 0 ∧ validate b (p.wide 0) (record 11 7) = none
      ∧ validate a (p.wide 0) (record 0 7) = some 1 ∧ p.pool.hasShared = true ∧ p.pool.reservedBusy 0 = false
      ∧ (withList 1 (List.replicate 24 (done .shared 0 .done)) p).pool.hasShared = false := by decide

/-- An AT_TIME record. -/
def atTime (start : Ticks) (strict : Bool) : StepRecord :=
  { record 3 7 with start := 2, startTime := start, strict := strict }

/-- In tick 0: the lateness of start_times at the bounds of R78. -/
theorem witness_StepStartsOnAnIdleChannel_lateness :
    ((1 : Ticks) - (State.reset.tb + 1)).toNat = 0 ∧ ((2 : Ticks) - (State.reset.tb + 1)).toNat = 1
      ∧ ((0x800000000000 : Ticks) - (State.reset.tb + 1)).toNat = 140737488355327
      ∧ ((0x800000000001 : Ticks) - (State.reset.tb + 1)).toNat = 140737488355328
      ∧ ((0 : Ticks) - (State.reset.tb + 1)).toNat = 281474976710655 := by decide

/-- AT_TIME and ON_MARK records that pass validation, and a pool with no slot for a report or a start. -/
theorem witness_StepStartsOnAnIdleChannel_conditions :
    validate output false (atTime 1 true) = none ∧ validate output false (atTime 2 true) = none
      ∧ validate output false (atTime 0x800000000000 true) = none
      ∧ validate output false (atTime 0x800000000001 true) = none
      ∧ validate output false (atTime 0x800000000001 false) = none ∧ validate output false (atTime 0 false) = none
      ∧ output.bound = some 1 ∧ (crowded (reading output)).port.answers (.stepRead 0)
      ∧ (crowded (reading output)).pool.reservedBusy 0 = true ∧ (crowded (reading output)).pool.hasShared = false
      ∧ validate output false { record 3 7 with start := 3, markSource := 7, startTimeout := 1 } = none
      ∧ (7 : ChanId).val = (7 : BitVec 4).toNat := by decide

theorem witness_BadStepIsRemoved :
    let p := (reading output).endTransaction
    output.bound = some 1 ∧ p.pool.hasShared = true ∧ validate output (p.wide 0) (record 0 7) = some 1
      ∧ validate output (p.wide 0) (record 7 7) = some 2 := by decide

theorem witness_ReadErrorStopsAnIdleChannel :
    let p := crowded (reading output)
    p.port.answers (.stepRead 0) ∧ output.state = .idle ∧ output.active = none ∧ output.queue = []
      ∧ output.halt = none ∧ output.stale = false ∧ output.bound = some 1 ∧ p.pool.hasShared = false
      ∧ p.pool.reservedBusy 0 = true ∧ (reading output).pool.hasShared = true := by decide

/-- A read fails at a channel that still holds steps; and its last step then ends at its count. -/
theorem witness_ReadErrorDrainsAChannel :
    let r := { record 3 7 with count := 2 }
    let ch := active output r 7
    let queued := { ch with queue := [⟨3, record 3 7⟩], armed := .good }
    let asleep := { output with
      state := .waiting, queue := [⟨3, record 3 7⟩], armed := .good, evaluation := .onMark 5 none }
    let last := { ch with cycleCount := 1, fetchFault := true }
    (reading queued).port.answers (.stepRead 0) ∧ queued.halt = none ∧ queued.stale = false
      ∧ queued.state = .active ∧ queued.active = some ⟨2, r⟩ ∧ queued.armed = .good ∧ (record 3 7).start ≠ 1
      ∧ r.kindOf ≠ some .position ∧ asleep.state = .waiting ∧ asleep.active = none ∧ asleep.queue ≠ []
      ∧ asleep.evaluation ≠ .none ∧ asleep.halt = none ∧ asleep.stale = false
      ∧ last.state = .active ∧ last.running = true ∧ last.counted = false ∧ last.bound = some 1
      ∧ r.isOutput = true ∧ last.phase + 1 = 2 ^ r.prescale.toNat ∧ last.counter = r.top.toNat ∧ last.halt = none
      ∧ r.count ≠ 0 ∧ last.cycleCount + 1 = r.count.toNat ∧ last.queue = [] ∧ last.fetchFault = true := by decide

theorem witness_EntryWritesAdvanceTheRing :
    let p := carrying (.entryWrite 1 .single) (withList 1 [done .shared 0 .done]
      (withRing 1 { ring with writeIndex := 15, inFlight := true } running))
    p.port.answers (.entryWrite 1 .single) ∧ p.pool.lists[(1 : RingId)] = done .shared 0 .done :: []
      ∧ (∀ c : ChanId, p.chans[c].hasOffer = false) ∧ ¬ (p.admin.unit = .waiting ∧ p.admin.waitingOn = .ring 1)
      ∧ (carrying (.entryWrite 1 .pad) p).port.answers (.entryWrite 1 .pad)
      ∧ (carrying (.entryWrite 1 .longFirst) p).port.answers (.entryWrite 1 .longFirst) := by decide

/-- The second write of a long STEP_DONE, alone and with a CQ_RESET that waits for it. -/
theorem witness_EntryWritesAdvanceTheRing_stats :
    let p := carrying (.entryWrite 1 .stats) (withList 1 [long]
      (withRing 1 { ring with writeIndex := 1, inFlight := true, halfWritten := true } running))
    let w : Part := { p with admin := { p.admin with
      unit := .waiting, waitingOn := .ring 1, current := some ⟨4, params [(4, 1)], 15⟩ } }
    p.port.answers (.entryWrite 1 .stats) ∧ p.pool.lists[(1 : RingId)] = long :: [] ∧ long.slot = .shared
      ∧ (∀ c : ChanId, p.chans[c].hasOffer = false) ∧ ¬ (p.admin.unit = .waiting ∧ p.admin.waitingOn = .ring 1)
      ∧ w.admin.unit = .waiting ∧ w.admin.waitingOn = .ring 1
      ∧ w.admin.current = some ⟨4, params [(4, 1)], 15⟩
      ∧ (carrying (.entryWrite 1 .longFirst) w).port.answers (.entryWrite 1 .longFirst)
      ∧ (carrying (.entryWrite 1 .pad) w).port.answers (.entryWrite 1 .pad) := by decide

/-- A pool with its shared slots full: channel 0 waits with a FLUSH, or with a removal report. -/
theorem witness_EntryWritesAdvanceTheRing_offers :
    let d : Draft := { channel := 0, time := 0, body := .flush 4 9 3 false }
    let pending := { output with state := .stopped, pendingReport := some d }
    let bad := { output with state := .held, queue := [⟨2, record 0 7⟩], armed := .removal .badStep 1 0 }
    let full (ch : Channel) : Part := carrying (.entryWrite 1 .single) (crowded (withChan 0 ch running))
    (full pending).port.answers (.entryWrite 1 .single) ∧ pending.hasOffer = true ∧ bad.hasOffer = true
      ∧ (∀ ch ∈ [pending, bad], (full ch).pool.lists[(1 : RingId)].head? = some (done .shared 0 .done)
          ∧ (∀ x : ChanId, (full ch).chans[x].hasOffer = true →
            ((0 : ChanId) - ((full ch).pool.rotation + 1)).val ≤ (x - ((full ch).pool.rotation + 1)).val)
          ∧ ((full ch).pool.dropHead 1).hasShared = true ∧ ch.bound = some 1
          ∧ ¬ ((full ch).admin.unit = .waiting ∧ (full ch).admin.waitingOn = .ring 1))
      ∧ pending.pendingReport = some d ∧ pending.state = .stopped ∧ d.body = .flush 4 9 3 false
      ∧ bad.pendingReport = none ∧ bad.armed = .removal .badStep 1 0 ∧ bad.queue = [⟨2, record 0 7⟩]
      ∧ bad.active = none ∧ bad.halt = none ∧ bad.evaluation = .none ∧ bad.fetchFault = false := by decide +kernel

/-- Channel 0 waits with a FLUSH for the slot that is freed, or with a removal report. -/
def offers : List Channel :=
  [{ output with
      state := .closed
      pendingReport := some { channel := 0, time := 0, body := .flush 4 9 3 false } },
   { output with state := .held, queue := [⟨2, record 0 7⟩], armed := .removal .badStep 1 0 }]

/-- The reserved slot of channel 0 is freed, after the second write of a long STEP_DONE too. -/
theorem witness_EntryWritesAdvanceTheRing_reserved :
    let kept := { long with slot := .reserved }
    (∀ ch ∈ output :: offers,
      let p := carrying (.entryWrite 1 .stats) (withList 1 [kept] (withChan 0 ch running))
      p.port.answers (.entryWrite 1 .stats) ∧ p.pool.lists[(1 : RingId)] = [kept] ∧ kept.isReservedOf 0 = true
        ∧ (p.pool.dropHead 1).reservedBusy 0 = false ∧ ch.active = none ∧ ch.bound = some 1
        ∧ ¬ (p.admin.unit = .waiting ∧ p.admin.waitingOn = .ring 1)) := by decide +kernel

/-- The channel holds nothing for the slot, a pending report, or a removal report. -/
theorem witness_EntryWritesAdvanceTheRing_holds :
    output.Law ∧ output.pendingReport = none ∧ output.state ≠ .held ∧ output.fetchFault = false
      ∧ (offers.map fun ch => (ch.pendingReport.isSome, ch.state)) = [(true, .closed), (false, .held)]
      ∧ (offers.map Channel.armed) = [.none, .removal .badStep 1 0]
      ∧ (offers.map Channel.queue) = [[], [⟨2, record 0 7⟩]]
      ∧ (∀ ch ∈ offers, ch.halt = none ∧ ch.evaluation = .none ∧ ch.fetchFault = false) := by decide

/-- A removal report waits for a shared slot behind the active step of channel 0, with a valid step behind it; and on a
HELD channel with a CHAIN step behind it, which the freed shared slot or the freed reserved slot lets go. -/
theorem witness_EntryWritesAdvanceTheRing_behind :
    let a : Machine.Step := ⟨1, record 3 7⟩
    let bad : Machine.Step := ⟨2, record 0 7⟩
    let next : Machine.Step := ⟨3, record 3 7⟩
    let behindActive := { active output a.record 3 with active := some a, queue := [bad, next], armed := .removal .badStep 1 0 }
    let held := { output with state := .held, queue := [bad, next], armed := .removal .badStep 1 0 }
    let full (ch : Channel) : Part := carrying (.entryWrite 1 .single) (crowded (withChan 0 ch running))
    let kept (ch : Channel) : Part := carrying (.entryWrite 1 .single) (withList 1 [done .reserved 0 .done] (withChan 0 ch running))
    (∀ ch ∈ [behindActive, held], (full ch).port.answers (.entryWrite 1 .single) ∧ ch.hasOffer = true
        ∧ ((full ch).pool.dropHead 1).hasShared = true ∧ ch.bound = some 1 ∧ ch.pendingReport = none
        ∧ ch.armed = .removal .badStep 1 0 ∧ ch.queue = [bad, next] ∧ ch.window.length ≤ 4 ∧ ch.halt = none
        ∧ validate ch ((full ch).wide 0) next.record = none)
      ∧ behindActive.state = .active ∧ behindActive.active = some a ∧ a.runsOn [next]
      ∧ held.state = .held ∧ held.active = none ∧ held.evaluation = .none ∧ next.record.start = 0 ∧ next.runsOn []
      ∧ (kept held).port.answers (.entryWrite 1 .single)
      ∧ (done .reserved 0 .done).isReservedOf 0 = true ∧ ((kept held).pool.dropHead 1).reservedBusy 0 = false := by
  decide +kernel

theorem witness_FreedReservedSlotStartsTheHeldStep :
    let ch := { output with state := .held, queue := [⟨2, record 3 7⟩], armed := .due true true }
    let p := carrying (.entryWrite 1 .single) (withList 1 [done .reserved 0 .done] (withChan 0 ch running))
    p.port.answers (.entryWrite 1 .single) ∧ (carrying (.entryWrite 1 .stats) p).port.answers (.entryWrite 1 .stats)
      ∧ p.pool.lists[(1 : RingId)] = done .reserved 0 .done :: []
      ∧ (done .reserved 0 .done).isReservedOf 0 = true ∧ p.chans[(0 : ChanId)].state = .held
      ∧ (p.pool.dropHead 1).reservedBusy 0 = false ∧ ch.pendingReport = none ∧ ch.halt = none
      ∧ ch.active = none ∧ ch.queue = [⟨2, record 3 7⟩] ∧ ch.armed = .due true true ∧ ch.fetchFault = false
      ∧ ¬ (p.admin.unit = .waiting ∧ p.admin.waitingOn = .ring 1) := by decide

/-- The HELD step with two steps behind it, the first of them bad. -/
theorem witness_FreedReservedSlotStartsTheHeldStep_behind :
    let e : Machine.Step := ⟨1, record 3 7⟩
    let behind : List Machine.Step := [⟨2, record 0 7⟩, ⟨3, record 3 7⟩]
    let ch := { output with state := .held, queue := e :: behind, armed := .due false true }
    ch.window.length ≤ 4 ∧ e.runsOn behind ∧ behind ≠ [] ∧ ch.bound = some 1 ∧ ch.active = none
      ∧ ch.armed = .due false true := by decide

theorem witness_EntryWriteErrorFaultsTheRing :
    let p := carrying (.entryWrite 1 .stats) running
    let w : Part := { p with admin := { p.admin with
      unit := .waiting, waitingOn := .ring 1, current := some ⟨4, params [(4, 1)], 15⟩ } }
    p.port.answers (.entryWrite 1 .stats) ∧ ¬ (p.admin.unit = .waiting ∧ p.admin.waitingOn = .ring 1)
      ∧ w.port.answers (.entryWrite 1 .stats) ∧ w.admin.unit = .waiting ∧ w.admin.waitingOn = .ring 1
      ∧ w.admin.current = some ⟨4, params [(4, 1)], 15⟩ := by decide

theorem witness_AcqWriteCompletesTheCommand : (machine (carrying .acqWrite running)).part.port.answers .acqWrite := by
  decide

theorem witness_NoticeCountsAnEntry :
    Notice.reset.unnoticed + 1 = Notice.reset.threshold
      ∧ { Notice.reset with threshold := 2, holdOff := 1 }.unnoticed + 1
          ≠ { Notice.reset with threshold := 2, holdOff := 1 }.threshold
      ∧ { Notice.reset with timer := some 0 }.timer = some State.reset.tb
      ∧ Notice.reset.timer ≠ some State.reset.tb := by decide

/-- A good configuration block: two rings of four slots. -/
def block : BitVec 512 := BitVec.ofNat 512 (1 + 1024 * 2 ^ 32 + 4 * 2 ^ 64 + 2048 * 2 ^ 96 + 256 * 2 ^ 128)

theorem witness_DeviceReadsRunOrFault :
    (carrying .configRead running).port.answers .configRead ∧ block.extractLsb' 0 16 = 1
      ∧ block.extractLsb' 16 16 = 0 ∧ block.extractLsb' 80 16 = 0 ∧ block.extractLsb' 144 368 = 0
      ∧ legalSize 4 256 (block.extractLsb' 64 16).toNat = true ∧ (block.extractLsb' 32 32).toNat % 32 = 0
      ∧ legalSize 4 256 (block.extractLsb' 128 16).toNat = true
      ∧ (block.extractLsb' 96 32).toNat + 256 * 32 ≤ 2 ^ 32
      ∧ legalSize 4 256 0 = false ∧ (0 : BitVec 512).extractLsb' 0 16 ≠ 1 := by decide +kernel

theorem witness_DiscardAndResponseLimitEndTransactions :
    let p := carrying (.stepRead 0) running
    let d : Part := { p with port := { p.port with discard := true } }
    p.port.current = some ⟨.stepRead 0, 0, 0, 65536⟩ ∧ p.port.discard = false ∧ d.port.discard = true
      ∧ (65536 : Ticks) ≠ (machine p).tb ∧ { machine p with tb := 65536 }.tb = 65536
      ∧ answeredKind (.stepReadReturn 0) = some (.stepRead 0) ∧ (Instr.stepReadReturn 0).wellFormed = true
      ∧ (TxKind.stepRead 0).alike (.stepRead 7) = true := by decide

/-- A late answer is to come: the port carries nothing, or a transaction of another kind, or one of the same. -/
theorem witness_LateAnswers :
    let late (k : TxKind) : Part :=
      { carrying k running with port := { (carrying k running).port with withdrawn := [.stepRead 5] } }
    (late .acqWrite).port.lateLike (.stepRead 0) ∧ TxKind.acqWrite.alike (.stepRead 0) = false
      ∧ (late (.stepRead 0)).port.lateLike (.stepRead 0) ∧ (late (.stepRead 0)).port.current.isSome = true
      ∧ ¬ (late (.stepRead 0)).port.lateLike .acqWrite ∧ (late .acqWrite).port.answers .acqWrite := by decide

/-! ### Events of time and of the lines -/

/-- A WAITING channel with a step to be started. -/
def waiting (evaluation : Evaluation) : Channel :=
  { output with state := .waiting, queue := [⟨2, record 3 7⟩], armed := .good, evaluation := evaluation }

theorem witness_ConditionsAreMetOrTimeOut :
    let ch := waiting (.atTime 1)
    ch.state = .waiting ∧ ch.active = none ∧ ch.queue = [⟨2, record 3 7⟩] ∧ ch.halt = none
      ∧ ch.fetchFault = false ∧ ch.bound = some 1 ∧ ch.evaluation = .atTime (State.reset.tb + 1)
      ∧ (waiting (.onMark 5 (some 0))).evaluation = .onMark 5 (some State.reset.tb)
      ∧ (withChan 0 ch running).pool.reservedBusy 0 = false
      ∧ (crowded (withChan 0 ch running)).pool.reservedBusy 0 = true
      ∧ (crowded (withChan 0 ch running)).pool.hasShared = false := by decide

/-- A WAITING channel with two steps behind the armed one: the armed one starts, and they are armed; or it times out, and
the CHAIN step behind it proceeds. -/
theorem witness_ConditionsAreMetOrTimeOut_behind :
    let behind : List Machine.Step := [⟨3, record 3 7⟩, ⟨0, record 0 7⟩]
    let ch (v : Evaluation) := { waiting v with queue := ⟨2, record 3 7⟩ :: behind }
    (ch (.atTime 1)).window.length ≤ 4 ∧ (⟨2, record 3 7⟩ : Machine.Step).runsOn behind
      ∧ (ch (.onMark 5 (some 0))).evaluation = .onMark 5 (some State.reset.tb) ∧ running.pool.hasShared = true
      ∧ validate (ch (.onMark 5 (some 0))) (running.wide 0) (record 3 7) = none ∧ (record 3 7).start = 0
      ∧ (⟨3, record 3 7⟩ : Machine.Step).runsOn [⟨0, record 0 7⟩] ∧ (ch (.atTime 1)).bound = some 1 := by decide

theorem witness_MarkStartsTheWaitingStep :
    let p : Part := { withChan 7 (waiting (.onMark 0 none)) running with
      marks := (Vector.replicate 8 false).set 0 true }
    let g := p.grant 0
    let busy := withList 1 [done .reserved 7 .done] p
    p.marks = (Vector.replicate 8 false).set 0 true ∧ g.chans[(7 : ChanId)].state = .waiting
      ∧ g.chans[(7 : ChanId)].evaluation = .onMark 0 none ∧ g.chans[(7 : ChanId)].active = none
      ∧ g.chans[(7 : ChanId)].queue = [⟨2, record 3 7⟩] ∧ g.chans[(7 : ChanId)].halt = none
      ∧ (record 3 7).markStart = false ∧ p.pool.reservedBusy 7 = false
      ∧ busy.pool.reservedBusy 7 = true ∧ busy.marks = p.marks ∧ (busy.grant 0).chans[(7 : ChanId)] = g.chans[(7 : ChanId)]
      ∧ (∀ x : ChanId, x ≠ 7 → p.chans[x].evaluation = .none) := by decide

theorem witness_DeadlineEndsTheWait :
    let h : HaltRequest := { close := true, boundary := true, deadline := true, flushed := 3, firstTag := 9 }
    let ch := { active output (record 3 7) 3 with halt := some h }
    let d : Draft := { channel := 0, time := 0, body := .flush 4 9 3 false }
    let stopped := { output with state := .stopped, pendingReport := some d }
    let a := { running.admin with unit := .waiting, waitingOn := .channel 0, deadline := some 0 }
    a.unit = .waiting ∧ a.deadline = some State.reset.tb ∧ a.waitingOn = .channel 0 ∧ ch.Law
      ∧ ch.halt = some h ∧ ch.active = some ⟨2, record 3 7⟩ ∧ ch.bound = some 1 ∧ stopped.halt = none
      ∧ stopped.pendingReport = some d ∧ d.body = .flush 4 9 3 false := by decide

theorem witness_CycleEndDecidesTheStep :
    let r := { record 3 7 with count := 2, prescale := 1 }
    let ch := { active output r 7 with phase := 1, cycleCount := 1 }
    let next : Machine.Step := ⟨3, record 3 7⟩
    let h : HaltRequest := { close := false, boundary := true, deadline := true, flushed := 3, firstTag := 9 }
    ch.state = .active ∧ ch.active = some ⟨2, r⟩ ∧ ch.running = true ∧ ch.counted = false ∧ ch.bound = some 1
      ∧ r.isOutput = true ∧ ch.phase + 1 = 2 ^ r.prescale.toNat ∧ ch.counter = r.top.toNat ∧ ch.halt = none
      ∧ ch.cycleCount + 1 = r.count.toNat ∧ ch.queue = [] ∧ ch.fetchFault = false
      ∧ { ch with cycleCount := 0 }.cycleCount + 1 ≠ r.count.toNat ∧ (record 3 7).count = 0
      ∧ ch.armed.isGood = false ∧ { ch with queue := [next], armed := .good }.queue = [next]
      ∧ next.record.start = 0 ∧ running.pool.hasShared = true ∧ running.pool.reservedBusy 0 = false
      ∧ { ch with halt := some h }.Law := by decide

/-- Every shared slot is occupied: the STEP_DONE of a step that ends takes the reserved slot, for each kind of end
with a GOOD CHAIN step behind it. -/
theorem witness_TheStepBehindIsHeld :
    let next : Machine.Step := ⟨3, record 3 7⟩
    (∀ kind ∈ [3, 7, 10, 11], let r := { record kind 7 with count := 1 }
      let ch := { active output r 7 with queue := [next], armed := .good }
      let p := filled (withChan 0 ch running)
      ch.queue = [next] ∧ ch.armed = .good ∧ ch.evaluation = .none ∧ ch.halt = none ∧ next.record.start = 0
        ∧ ch.bound = some 1 ∧ ch.cycleCount + 1 = r.count.toNat ∧ ch.okCount + 1 = r.count.toNat
        ∧ ch.thresholdCount + 1 = r.count.toNat ∧ p.pool.hasShared = false
        ∧ (p.poolAfterCapture 0 1 0 (.threshold 0 false false 7)).hasShared = false
        ∧ running.pool.hasShared = true ∧ running.pool.reservedBusy 0 = false) := by decide +kernel

/-- In tick 0, steps behind the ending one: AT_TIME in time, early, late, and skipped, and ON_MARK; each with a step
behind it in turn. -/
theorem witness_StepsFollow :
    let behind : List Machine.Step := [⟨0, record 3 7⟩]
    (∀ r ∈ [atTime 1 true, atTime 2 true, atTime 0 false, { record 3 7 with start := 3, markSource := 7 }],
      let ch := { active output { record 3 7 with count := 1 } 7 with queue := ⟨3, r⟩ :: behind, armed := .good }
      ch.window.length ≤ 4 ∧ (⟨3, r⟩ : Machine.Step).runsOn behind ∧ ¬ r.isSkipped State.reset.tb
        ∧ validate ch false r = none)
      ∧ (atTime 1 true).lateness State.reset.tb = 0 ∧ (atTime 2 true).lateness State.reset.tb = 1
      ∧ (atTime 0 true).isSkipped State.reset.tb ∧ (atTime 0 true).lateness State.reset.tb = 281474976710655 := by
  decide

/-- A skipped AT_TIME step with a valid CHAIN step behind it; and a CHAIN step with a valid IMMEDIATE one behind it, which
preempts it as it starts. -/
theorem witness_CycleEndDecidesTheStep_behind :
    let r := { record 3 7 with count := 1 }
    let preempting := { record 3 7 with start := 1 }
    let ch (r2 r3 : StepRecord) := { active output r 7 with queue := [⟨3, r2⟩, ⟨0, r3⟩], armed := .good }
    (ch (atTime 0 true) (record 3 7)).cycleCount + 1 = r.count.toNat ∧ (atTime 0 true).isSkipped State.reset.tb
      ∧ validate (ch (atTime 0 true) (record 3 7)) (running.wide 0) (record 3 7) = none
      ∧ (record 3 7).isOutput = true ∧ (record 3 7).start = 0
      ∧ (ch (atTime 0 true) (record 3 7)).window.length ≤ 4
      ∧ preempting.start = 1 ∧ preempting.isOutput = true
      ∧ validate (ch (record 3 7) preempting) (running.wide 0) preempting = none
      ∧ (let p := withChan 0 (ch (record 3 7) preempting) running
         (p.stepHandsOver 0 1 0 ⟨2, r⟩ .done ⟨3, record 3 7⟩ (behind := [⟨0, preempting⟩])).pool.hasShared = true) := by
  decide

theorem witness_CaptureEdgeTakesACapture :
    let r := { record 7 9 with polarity := 1, count := 2 }
    let ch := { active input r 3 with intervalArmed := true, okCount := 1 }
    ch.state = .active ∧ ch.active = some ⟨2, r⟩ ∧ ch.running = true ∧ ch.edgeTaken = false ∧ ch.bound = some 1
      ∧ r.isInterval = true ∧ ch.intervalEdge (rising running).clock r = true ∧ ch.halt = none
      ∧ ch.okCount + 1 = r.count.toNat ∧ ch.queue = [] ∧ ch.fetchFault = false
      ∧ { ch with okCount := 0 }.okCount + 1 ≠ r.count.toNat
      ∧ { ch with intervalArmed := false }.intervalArmed = false := by decide

/-- A measurement step with a GOOD CHAIN step behind it, and one under a halt request. -/
theorem witness_MeasurementStepsHandOverAndHalt :
    let h : HaltRequest := { close := true, boundary := true, deadline := true, flushed := 3, firstTag := 9 }
    let next : Machine.Step := ⟨3, { record 7 9 with polarity := 1 }⟩
    ∀ kind ∈ [7, 10], let r := { record kind 9 with polarity := 1, count := 2, strikes := 15 }
      let ch := { active input r 9 with queue := [next], armed := .good }
      ch.queue = [next] ∧ ch.armed = .good ∧ ch.evaluation = .none ∧ ch.halt = none ∧ next.record.start = 0
        ∧ running.pool.hasShared = true ∧ running.pool.reservedBusy 0 = false ∧ (record kind 9).count = 0
        ∧ { active input r 9 with halt := some h }.Law := by decide

theorem witness_OverrangeCountsAStrike :
    let r := { record 7 9 with polarity := 1, strikes := 15 }
    let ch := { active input r 8 with strikes := 14 }
    ch.state = .active ∧ ch.active = some ⟨2, r⟩ ∧ ch.running = true ∧ ch.counted = false ∧ ch.bound = some 1
      ∧ r.isInterval = true ∧ ch.gated State.reset.clock r = true ∧ ch.intervalEdge State.reset.clock r = false
      ∧ ch.phase + 1 = 2 ^ r.prescale.toNat ∧ ch.counter + 1 = r.top.toNat ∧ ch.halt = none
      ∧ r.strikes ≠ 0 ∧ ch.strikes + 1 = r.strikes.toNat ∧ ch.queue = [] ∧ ch.fetchFault = false
      ∧ { ch with strikes := 0 }.strikes + 1 ≠ r.strikes.toNat ∧ r.count = 0 ∧ ch.armed.isGood = false := by decide

theorem witness_CountWindowsCountEdges :
    let r := { record 10 9 with polarity := 1 }
    let ch := { active input r 9 with edgeCount := 65534 }
    ch.state = .active ∧ ch.active = some ⟨2, r⟩ ∧ ch.running = true ∧ ch.bound = some 1
      ∧ r.kindOf = some .count ∧ ch.edgeTaken = false ∧ (rising running).clock.edgeOf r ch.bLine = true
      ∧ State.reset.clock.edgeOf r ch.bLine = false ∧ ch.counted = false
      ∧ ch.phase + 1 = 2 ^ r.prescale.toNat ∧ ch.counter = r.top.toNat ∧ ch.halt = none
      ∧ ch.armed.isGood = false ∧ running.wide 0 = false ∧ ch.edgeCount < 65535
      ∧ 65535 ≤ { ch with edgeCount := 65535 }.edgeCount ∧ r.count = 0 ∧ r.strikes = 0 := by decide

/-- A COUNT step at its count, and one at its strike limit. -/
theorem witness_CountWindowsCountEdges_ends :
    let r := { record 10 9 with polarity := 1, count := 2, strikes := 15 }
    let ch := { active input r 9 with edgeCount := 65534, okCount := 1, strikes := 14 }
    ch.okCount + 1 = r.count.toNat ∧ ch.strikes + 1 = r.strikes.toNat ∧ r.count ≠ 0 ∧ r.strikes ≠ 0
      ∧ ch.edgeCount < 65535 ∧ 65535 ≤ { ch with edgeCount := 65535 }.edgeCount ∧ ch.halt = none ∧ ch.queue = []
      ∧ ch.fetchFault = false ∧ ch.counted = false ∧ State.reset.clock.edgeOf r ch.bLine = false := by decide

theorem witness_CountStepMovesThePosition :
    let r := { record 11 0 with cmp := 65535, count := 1 }
    let ch := { active input r 0 with position := 65535 }
    let k := (rising running).clock
    ch.state = .active ∧ ch.active = some ⟨2, r⟩ ∧ ch.running = true ∧ ch.edgeTaken = false ∧ ch.bound = some 1
      ∧ r.kindOf = some .position ∧ k.rises ch.bLine = true ∧ k.before ch.aLine = false
      ∧ stepPosition false (countsDown true false) ch.position = r.top.toNat
      ∧ ch.thresholdCount + 1 = r.count.toNat ∧ ch.queue = [] ∧ ch.halt = none ∧ ch.fetchFault = false
      ∧ stepPosition false (countsDown true false) { ch with position := 7 }.position ≠ r.top.toNat
      ∧ stepPosition false (countsDown true false) { ch with position := 7 }.position ≠ r.cmp.toNat
      ∧ { r with count := 0 }.count = 0 := by decide

theorem witness_TickAdvancesTheBlocks :
    (withChan 0 (active output (record 3 7) 3) running).due State.reset.clock = []
      ∧ (active output (record 3 7) 3).active = some ⟨2, record 3 7⟩ ∧ (record 3 7).isOutput = true := by decide

/-- A part in which two events of the tick are due. -/
def twoDue : Part :=
  { withChan 0 (active output (record 3 7) 7) running with
    notices := running.notices.set 2 { Notice.reset with timer := some 0 } }

theorem witness_TickAdvancesTheBlocks_due : twoDue.due State.reset.clock = [.cycleEnd 0, .notice 2] := by
  decide +kernel

theorem witness_TickAdvancesTheBlocks_claims : twoDue.ClaimLaw := ⟨by decide, by decide, by decide⟩

theorem witness_TickAdvancesTheBlocks_admin : twoDue.AdminLaw :=
  ⟨fun h => absurd (by decide) h, by decide, by decide, by decide, by decide⟩

theorem witness_EventsNotDueChangeNothing :
    Part.reset.chans[(7 : ChanId)].active = none ∧ Channel.reset.evaluation ≠ .atTime (State.reset.tb + 1)
      ∧ Part.reset.admin.unit ≠ .waiting := by decide

/-! ### Laws that every command keeps -/

/-- A part with a joined pair, an owned line, a long entry staged and an entry write outstanding. -/
def busy : Part :=
  carrying (.entryWrite 1 .longFirst) (withList 1 [long] (withRing 1 { ring with inFlight := true }
    { withChan 1 { Channel.reset with state := .subordinate } (withChan 0 (active output (record 3 7) 3) running) with
      pairs := (Vector.replicate 4 false).set 0 true
      lines := (Vector.replicate 16 LineEntry.reset).set 3 { LineEntry.reset with owner := some 0 } }))

theorem witness_ChannelLaw : busy.ChannelLaw := by decide

theorem witness_PairLaw : busy.PairLaw := by decide

theorem witness_LineLaw : busy.LineLaw := by decide

theorem witness_ClaimLaw : busy.ClaimLaw := ⟨witness_ChannelLaw, witness_PairLaw, witness_LineLaw⟩

theorem witness_StagingLaw : busy.StagingLaw := by
  refine ⟨by decide, by decide, by decide, by decide, fun c d h => ?_⟩
  have none : ∀ c : ChanId, busy.chans[c].pendingReport = none := by decide
  rw [none c] at h
  cases h

theorem witness_OrderLaw : ∀ c : ChanId, busy.chans[c].OrderLaw := by decide

theorem witness_WindowLaw : busy.WindowLaw := by
  have room : ∀ c : ChanId, busy.chans[c].window.length < 4 := by decide
  exact fun c => ⟨witness_OrderLaw c, fun _ _ => room c⟩

/-- The windows of the part repeat no slot index, and the active step of channel 0 is not of the slot at its fetch
index. -/
theorem witness_distinctSlots :
    (∀ c : ChanId, busy.chans[c].distinctSlots)
      ∧ ∀ a, busy.chans[(0 : ChanId)].active = some a → a.index ≠ busy.chans[(0 : ChanId)].fetchIndex := by
  refine ⟨by decide, fun a h => ?_⟩
  have ha : busy.chans[(0 : ChanId)].active = some ⟨2, record 3 7⟩ := by decide
  obtain rfl := Option.some.inj (ha.symm.trans h)
  decide

theorem witness_RingLaw : busy.RingLaw := by
  refine ⟨by decide, fun q part h => ?_⟩
  have hq : some (TxKind.entryWrite 1 .longFirst) = some (.entryWrite q part) := h.2
  cases hq
  decide

theorem witness_AcqLaw : busy.AcqLaw := by decide

theorem witness_laws_about_a_next_state : ∃ t, exec (.tick 0) (machine busy) = .next t := ⟨_, rfl⟩

theorem witness_CounterLaw : busy.CounterLaw := by decide

/-- A command that waits on a channel with its deadline running. -/
theorem witness_AdminLaw :
    ({ busy with admin := { busy.admin with unit := .waiting, waitingOn := .channel 0, deadline := some 9 } } :
      Part).AdminLaw ∧ busy.AdminLaw ∧ admin.AdminLaw := by
  refine ⟨⟨fun _ => ⟨by decide, 0, by decide⟩, ?_, ?_, ?_, ?_⟩, ⟨fun h => absurd (by decide) h, ?_, ?_, ?_, ?_⟩,
    ⟨fun h => absurd (by decide) h, ?_, ?_, ?_, ?_⟩⟩ <;> decide

theorem witness_OnlyItsCommandsMoveEachRegister :
    (∀ pins, Instr.enable ≠ .hardReset pins) ∧ (∀ pins, Instr.enable ≠ .tick pins) ∧ Instr.enable ≠ .tbloRead
      ∧ (∀ v, Instr.enable ≠ .cfgbaseWrite v) ∧ Instr.enable ≠ .reset ∧ (∀ r, Instr.enable ≠ .linePark r)
      ∧ (∀ r, Instr.enable ≠ .pairJoin r) ∧ (∀ r, Instr.enable ≠ .pairSplit r) := by
  refine ⟨?_, ?_, ?_, ?_, ?_, ?_, ?_, ?_⟩ <;> intros <;> intro h <;> cases h

end Sys2Proof.Tests
end

section
/-! PROOF. The PDM level of B (R38): the bit reversal maps the counters of a cycle one-to-one onto themselves, so the
cycle holds as many reversals below cmp as there are numbers below cmp. -/

namespace Sys2Proof.Machine

/-! ### reverseBits -/

theorem reverseBits_lt_two_pow (w n : Nat) : reverseBits w n < 2 ^ w := by
  induction w generalizing n with
  | zero => simp [reverseBits]
  | succ w ih =>
    have hrest : reverseBits w (n / 2) < 2 ^ w := ih (n / 2)
    have hbit : n % 2 * 2 ^ w ≤ 1 * 2 ^ w := Nat.mul_le_mul_right _ (by omega)
    rw [reverseBits, Nat.pow_succ]
    omega

theorem testBit_reverseBits {w i : Nat} (n : Nat) (hi : i < w) :
    (reverseBits w n).testBit i = n.testBit (w - 1 - i) := by
  induction w generalizing n with
  | zero => omega
  | succ w ih =>
    rw [reverseBits, Nat.mul_comm, Nat.testBit_two_pow_mul_add _ (reverseBits_lt_two_pow w (n / 2))]
    split
    next hlow => rw [ih (n / 2) hlow, Nat.testBit_div_two]; congr 1; omega
    next hhigh =>
      obtain rfl : i = w := by omega
      simp

theorem reverseBits_involutive {w n : Nat} (hn : n < 2 ^ w) : reverseBits w (reverseBits w n) = n := by
  refine Nat.eq_of_testBit_eq fun i => ?_
  by_cases hi : i < w
  · rw [testBit_reverseBits _ hi, testBit_reverseBits _ (by omega)]
    congr 1
    omega
  · have hw : 2 ^ w ≤ 2 ^ i := Nat.pow_le_pow_right (by decide) (by omega)
    rw [Nat.testBit_lt_two_pow ((reverseBits_lt_two_pow w _).trans_le hw),
      Nat.testBit_lt_two_pow (hn.trans_le hw)]

/-- R38: reversal maps the values 0 to top one-to-one onto themselves. -/
theorem range_map_reverseBits_perm (w : Nat) :
    ((List.range (2 ^ w)).map (reverseBits w)).Perm (List.range (2 ^ w)) := by
  have hinj : ∀ m ∈ List.range (2 ^ w), ∀ n ∈ List.range (2 ^ w), reverseBits w m = reverseBits w n → m = n := by
    intro m hm n hn h
    rw [← reverseBits_involutive (List.mem_range.1 hm), h, reverseBits_involutive (List.mem_range.1 hn)]
  refine (List.perm_ext_iff_of_nodup (List.nodup_range.map_on hinj) List.nodup_range).2 fun n => ?_
  simp only [List.mem_map, List.mem_range]
  constructor
  · rintro ⟨m, -, rfl⟩
    exact reverseBits_lt_two_pow w m
  · exact fun hn => ⟨reverseBits w n, reverseBits_lt_two_pow w n, reverseBits_involutive hn⟩

theorem countP_range_lt {c m : Nat} (h : c ≤ m) : (List.range m).countP (fun n => decide (n < c)) = c := by
  obtain ⟨d, rfl⟩ := Nat.exists_eq_add_of_le h
  have hbelow : (List.range c).countP (fun n => decide (n < c)) = (List.range c).length :=
    List.countP_eq_length.2 (by simp)
  have habove : ((List.range d).map (c + ·)).countP (fun n => decide (n < c)) = 0 :=
    List.countP_eq_zero.2 (by simp)
  rw [List.range_add, List.countP_append, hbelow, habove, List.length_range, Nat.add_zero]

theorem countP_range_reverseBits_lt {w c : Nat} (h : c ≤ 2 ^ w) :
    (List.range (2 ^ w)).countP (fun n => decide (reverseBits w n < c)) = c :=
  calc (List.range (2 ^ w)).countP (fun n => decide (reverseBits w n < c))
    _ = ((List.range (2 ^ w)).map (reverseBits w)).countP (fun n => decide (n < c)) := by
      rw [List.countP_map, Function.comp_def]
    _ = (List.range (2 ^ w)).countP (fun n => decide (n < c)) := (range_map_reverseBits_perm w).countP_eq _
    _ = c := countP_range_lt h

/-! ### The level of a PDM step -/

theorem pdmWidth_eq_some {top w limit : Nat} (hpos : 1 ≤ w) (hle : w ≤ limit) (htop : top + 1 = 2 ^ w) :
    pdmWidth top limit = some w := by
  induction limit with
  | zero => omega
  | succ v ih =>
    rw [pdmWidth]
    split
    next hv => rw [Nat.pow_right_injective le_rfl (hv.symm.trans htop)]
    next hv =>
      have hne : w ≠ v + 1 := fun h => hv (h ▸ htop)
      exact ih (by omega)

theorem StepRecord.bLevel_pdm {r : StepRecord} {w : Nat} (hkind : r.kindOf = some .pdm) (hpos : 1 ≤ w)
    (hle : w ≤ 32) (htop : r.top.toNat + 1 = 2 ^ w) (counter : Nat) (odd : Bool) :
    r.bLevel counter odd = decide (reverseBits w counter < r.cmp.toNat) := by
  simp only [bLevel, hkind, pdmWidth_eq_some hpos hle htop]

/-- Settles O6: the reversal of the counter is the model's `reverseBits`, and the count of its values below cmp is
that of a permutation of the cycle's counters. -/
theorem pdmCycleHoldsCmpHighTicks : Obligations.PdmCycleHoldsCmpHighTicks := by
  intro r w odd hkind hpos hle htop hcmp
  have hlevel := fun n => StepRecord.bLevel_pdm hkind hpos hle htop n odd
  constructor
  · intro n _
    exact ⟨reverseBits w n, reverseBits_lt_two_pow w n, fun _ hi => testBit_reverseBits n hi,
      by rw [hlevel, decide_eq_true_iff]⟩
  · simp only [hlevel]
    exact countP_range_reverseBits_lt hcmp

end Sys2Proof.Machine
end

section
/-! PROOF. The read latch of the time base (R69): which commands move the state outside the part, and what the host
reads and writes at TBLO and TBHI. -/

namespace Sys2Proof.Machine

/-! ### What a command leaves of the state outside the part -/

theorem State.exists_withPart_of_next_onPart {s t : State} {f : Clock → Part → Part}
    (h : (Host.Outcome.next (s.onPart f) : Host.Outcome State Fault Refusal) = .next t) :
    ∃ p, t = s.withPart p := by
  cases h
  exact ⟨_, rfl⟩

theorem eq_of_execIgnoredRegisterWrite {register : Reg} {value : Word32} {s t : State}
    (h : execIgnoredRegisterWrite register value s = .next t) : t = s := by
  unfold execIgnoredRegisterWrite at h
  split at h <;> cases h
  rfl

theorem exists_withPart_of_execBadOpcode {opcode : BitVec 8} {r : CommandRecord} {s t : State}
    (h : execBadOpcode opcode r s = .next t) : ∃ p, t = s.withPart p := by
  unfold execBadOpcode at h
  split at h
  · cases h
  · exact State.exists_withPart_of_next_onPart h

theorem exec_hardReset_tbhi (pins : BitVec 16) (s : State) :
    ∃ t, exec (.hardReset pins) s = .next t ∧ t.tbhi = 0 := ⟨_, rfl, rfl⟩

theorem exec_tbloRead (s : State) : exec .tbloRead s =
    .next { s with readData := s.tb.extractLsb' 0 32, tbhi := s.tb.extractLsb' 32 16 } := rfl

theorem exec_tick (pins : BitVec 16) (s : State) :
    exec (.tick pins) s = .next ((s.onPart fun k p => Part.takeDue k dueLimit p).endTick pins) := rfl

theorem State.endTick_tbhi (s : State) (pins : BitVec 16) : (s.endTick pins).tbhi = s.tbhi := rfl

/-- Outside the part only HARD_RESET, TBLO_READ and TICK change anything (R68, R69, R164). -/
theorem exists_withPart_of_exec {i : Instr} {s t : State} (h : exec i s = .next t)
    (hreset : ∀ pins, i ≠ .hardReset pins) (hread : i ≠ .tbloRead) (htick : ∀ pins, i ≠ .tick pins) :
    ∃ p, t = s.withPart p := by
  cases i with
  | hardReset pins => exact absurd rfl (hreset pins)
  | tbloRead => exact absurd rfl hread
  | tick pins => exact absurd rfl (htick pins)
  | reset => cases h; exact ⟨_, rfl⟩
  | ignoredRegisterWrite register value => exact ⟨s.part, eq_of_execIgnoredRegisterWrite h⟩
  | badOpcode opcode r => exact exists_withPart_of_execBadOpcode h
  | _ => exact State.exists_withPart_of_next_onPart h

theorem tbhi_of_exec {i : Instr} {s t : State} (h : exec i s = .next t) (hread : i ≠ .tbloRead)
    (hreset : ∀ pins, i ≠ .hardReset pins) : t.tbhi = s.tbhi := by
  by_cases htick : ∃ pins, i = .tick pins
  · obtain ⟨pins, rfl⟩ := htick
    rw [exec_tick] at h
    cases h
    rw [State.endTick_tbhi, State.onPart_tbhi]
  · obtain ⟨p, rfl⟩ := exists_withPart_of_exec h hreset hread (not_exists.1 htick)
    rw [State.withPart_tbhi]

/-! ### TBLO and TBHI at the host interface (spec 12.5) -/

theorem State.readRegister_tblo (s : State) : s.readRegister .tblo = s.tb.extractLsb' 0 32 := rfl

theorem State.readRegister_tbhi (s : State) : s.readRegister .tbhi = (0 : BitVec 16) ++ s.tbhi := rfl

theorem exec_ignoredWrite {register : Reg} {value : Word32} (h : ignoredWrite register value = true) (s : State) :
    exec (decodeHostWord (.write register value)) s = .next s := by
  have hdecode : decodeHostWord (.write register value) = .ignoredRegisterWrite register value := if_pos h
  have hexec : execIgnoredRegisterWrite register value s = .next s := if_pos h
  rw [hdecode]
  exact hexec

/-- Settles O13: TBLO_READ and HARD_RESET set the latch, TICK keeps it, every other command moves the part alone, and
writes to TBLO and TBHI are among the ignored ones. -/
theorem tbloReadsLatchTheTimeBase : Obligations.TbloReadsLatchTheTimeBase := by
  refine ⟨fun s => ⟨s.readRegister_tblo, ?_, ?_, _, exec_tbloRead s, rfl, rfl⟩,
    fun s pins => exec_hardReset_tbhi pins s,
    fun _ _ _ h hread hreset => tbhi_of_exec h hread hreset,
    fun s _ => ⟨exec_ignoredWrite rfl s, exec_ignoredWrite rfl s⟩⟩
  · rw [s.readRegister_tbhi, BitVec.extractLsb'_append_eq_right]
  · rw [s.readRegister_tbhi, BitVec.extractLsb'_append_eq_left]

end Sys2Proof.Machine
end

section
/-! PROOF. TOP and INTSTAT (R129, R130): the scan of the notice contexts in id order keeps the first of the highest
level, and the fields of INTSTAT stand at their bits. -/

namespace Sys2Proof.Machine

/-! ### The scan for TOP -/

theorem Notice.shown_iff {n : Notice} : n.shown = true ↔ n.pending = true ∧ n.enable = true :=
  Bool.and_eq_true_iff

/-- Context `i` goes before context `j` at TOP: the higher level, the lower id among equals (R130). -/
def Part.GoesBefore (p : Part) (i j : NoticeId) : Prop :=
  p.notices[j].level < p.notices[i].level ∨ p.notices[j].level = p.notices[i].level ∧ i ≤ j

/-- Among the contexts of `l`, context `i` is shown and goes before every other that is shown. -/
def Part.Leads (p : Part) (l : List NoticeId) (i : NoticeId) : Prop :=
  i ∈ l ∧ p.notices[i].shown = true ∧ ∀ j ∈ l, p.notices[j].shown = true → p.GoesBefore i j

/-- The candidate that a scan of `l` has to leave: the leader, or none where no context of `l` is shown. -/
def Part.IsTopOf (p : Part) (l : List NoticeId) : Option NoticeId → Prop
  | none => ∀ j ∈ l, ¬ p.notices[j].shown = true
  | some i => p.Leads l i

theorem Part.goesBefore_iff {p : Part} {i j : NoticeId} : p.GoesBefore i j ↔
    p.notices[j].level < p.notices[i].level ∨ p.notices[j].level = p.notices[i].level ∧ i.val ≤ j.val := Iff.rfl

theorem Part.GoesBefore.refl (p : Part) (i : NoticeId) : p.GoesBefore i i := .inr ⟨rfl, le_rfl⟩

theorem Part.GoesBefore.antisymm {p : Part} {i j : NoticeId} (hij : p.GoesBefore i j) (hji : p.GoesBefore j i) :
    i = j := by
  rw [Part.goesBefore_iff] at hij hji
  apply Fin.ext
  omega

theorem Part.GoesBefore.trans {p : Part} {i j k : NoticeId} (hij : p.GoesBefore i j) (hjk : p.GoesBefore j k) :
    p.GoesBefore i k := by
  rw [Part.goesBefore_iff] at *
  omega

theorem Part.Leads.unique {p : Part} {l : List NoticeId} {i j : NoticeId} (hi : p.Leads l i) (hj : p.Leads l j) :
    i = j := by
  obtain ⟨himem, hishown, hibefore⟩ := hi
  obtain ⟨hjmem, hjshown, hjbefore⟩ := hj
  exact (hibefore j hjmem hjshown).antisymm (hjbefore i himem hishown)

theorem betterTop_of_not_shown {p : Part} {i : NoticeId} (h : ¬ p.notices[i].shown = true) (best : Option NoticeId) :
    betterTop p best i = best := if_neg h

theorem betterTop_none {p : Part} {i : NoticeId} (h : p.notices[i].shown = true) :
    betterTop p none i = some i := if_pos h

theorem betterTop_some {p : Part} {i : NoticeId} (h : p.notices[i].shown = true) (b : NoticeId) :
    betterTop p (some b) i = if p.notices[b].level < p.notices[i].level then some i else some b := if_pos h

/-- A context scanned after `l` takes the lead only with a higher level: its id is higher than every id of `l`. -/
theorem Part.IsTopOf.append_singleton {p : Part} {l : List NoticeId} {best : Option NoticeId} {i : NoticeId}
    (h : p.IsTopOf l best) (hlast : ∀ j ∈ l, j < i) : p.IsTopOf (l ++ [i]) (betterTop p best i) := by
  by_cases hi : p.notices[i].shown = true
  · cases best with
    | none =>
      rw [betterTop_none hi]
      refine ⟨by simp, hi, List.forall_mem_append.2 ⟨fun j hj hshown => absurd hshown (h j hj), ?_⟩⟩
      simpa using fun _ => GoesBefore.refl p i
    | some b =>
      obtain ⟨hmem, hshown, hbefore⟩ := h
      rw [betterTop_some hi]
      split
      next hlevel =>
        refine ⟨by simp, hi, List.forall_mem_append.2 ⟨fun j hj hj' => ?_, ?_⟩⟩
        · exact GoesBefore.trans (.inl hlevel) (hbefore j hj hj')
        · simpa using fun _ => GoesBefore.refl p i
      next hlevel =>
        have hbi : p.GoesBefore b i := by
          have hlt : b.val < i.val := hlast b hmem
          rw [goesBefore_iff]
          omega
        exact ⟨by simp [hmem], hshown, List.forall_mem_append.2 ⟨hbefore, by simpa using fun _ => hbi⟩⟩
  · rw [betterTop_of_not_shown hi]
    cases best with
    | none => exact List.forall_mem_append.2 ⟨h, by simpa using hi⟩
    | some b =>
      obtain ⟨hmem, hshown, hbefore⟩ := h
      exact ⟨by simp [hmem], hshown,
        List.forall_mem_append.2 ⟨hbefore, by simpa using fun hi' => absurd hi' hi⟩⟩

theorem Part.isTopOf_foldl_betterTop (p : Part) {l : List NoticeId} (hsorted : l.Pairwise (· < ·)) :
    p.IsTopOf l (l.foldl (betterTop p) none) := by
  induction l using List.reverseRecOn with
  | nil => exact fun j hj => absurd hj List.not_mem_nil
  | append_singleton l i ih =>
    obtain ⟨hl, -, hlast⟩ := List.pairwise_append.1 hsorted
    rw [List.foldl_concat]
    exact (ih hl).append_singleton fun j hj => hlast j hj i (List.mem_singleton_self i)

/-! ### TOP -/

theorem NoticeId.mem_all : ∀ i : NoticeId, i ∈ ([0, 1, 2, 3, 4] : List NoticeId) := by decide

theorem Part.isTopOf_topContext (p : Part) : p.IsTopOf [0, 1, 2, 3, 4] p.topContext :=
  p.isTopOf_foldl_betterTop (by decide)

theorem Part.topContext_eq_none_iff {p : Part} :
    p.topContext = none ↔ ∀ i : NoticeId, ¬ p.notices[i].shown = true := by
  have h := p.isTopOf_topContext
  cases htop : p.topContext with
  | none =>
    rw [htop] at h
    exact iff_of_true rfl fun i => h i (NoticeId.mem_all i)
  | some b =>
    rw [htop] at h
    obtain ⟨-, hshown, -⟩ := h
    exact iff_of_false (Option.some_ne_none b) fun hnone => hnone b hshown

theorem Part.topContext_eq_some_iff {p : Part} {i : NoticeId} :
    p.topContext = some i ↔ p.Leads [0, 1, 2, 3, 4] i := by
  have h := p.isTopOf_topContext
  constructor
  · intro htop
    rwa [htop] at h
  · intro hi
    cases htop : p.topContext with
    | none =>
      obtain ⟨-, hshown, -⟩ := hi
      exact absurd hshown (topContext_eq_none_iff.1 htop i)
    | some b =>
      rw [htop] at h
      rw [h.unique hi]

theorem Part.top_of_none {p : Part} (h : p.topContext = none) : p.top = 7 := by rw [Part.top, h]

theorem Part.top_of_some {p : Part} {i : NoticeId} (h : p.topContext = some i) : p.top = BitVec.ofNat 3 i := by
  rw [Part.top, h]

/-- No context has the id 7 that TOP shows for none. -/
theorem NoticeId.ofNat_ne_seven : ∀ i : NoticeId, BitVec.ofNat 3 i ≠ 7 := by decide

theorem NoticeId.ofNat_inj : ∀ {i j : NoticeId}, BitVec.ofNat 3 i = BitVec.ofNat 3 j → i = j := by decide

theorem Part.top_eq_seven_iff {p : Part} : p.top = 7 ↔ p.topContext = none := by
  cases htop : p.topContext with
  | none => exact iff_of_true (top_of_none htop) rfl
  | some b => exact iff_of_false (top_of_some htop ▸ NoticeId.ofNat_ne_seven b) (Option.some_ne_none b)

theorem Part.top_eq_ofNat_iff {p : Part} {i : NoticeId} : p.top = BitVec.ofNat 3 i ↔ p.topContext = some i := by
  refine ⟨fun h => ?_, top_of_some⟩
  cases htop : p.topContext with
  | none => exact absurd (h.symm.trans (top_of_none htop)) (NoticeId.ofNat_ne_seven i)
  | some b => rw [NoticeId.ofNat_inj ((top_of_some htop).symm.trans h)]

theorem Part.leads_all_iff {p : Part} {i : NoticeId} : p.Leads [0, 1, 2, 3, 4] i ↔
    p.notices[i].pending = true ∧ p.notices[i].enable = true
      ∧ ∀ j : NoticeId, p.notices[j].pending = true → p.notices[j].enable = true → p.GoesBefore i j := by
  simp only [Leads, NoticeId.mem_all, Notice.shown_iff, true_and, forall_const, and_assoc, and_imp]

/-! ### The fields of INTSTAT (R129, spec 12.5)

The rules for an append read the widths of its two parts off its type, so the sums of widths stay unevaluated
(`-Nat.reduceAdd`). -/

theorem Ring.isFaulted_eq_decide (r : Ring) : r.isFaulted = decide (r.state = .faulted) := by
  cases h : r.state <;> simp [Ring.isFaulted, h]

theorem Part.intstat_top (p : Part) : p.intstat.extractLsb' 16 3 = p.top := by
  rw [intstat]
  simp [BitVec.extractLsb'_append_eq_of_le, BitVec.extractLsb'_append_eq_right, -Nat.reduceAdd]

/-- The bits that no field of INTSTAT names are 0. -/
theorem Part.intstat_unnamed (p : Part) : p.intstat.extractLsb' 5 3 = 0 ∧ p.intstat.extractLsb' 12 4 = 0
    ∧ p.intstat.extractLsb' 19 13 = 0 := by
  rw [intstat]
  refine ⟨?_, ?_, ?_⟩ <;>
    simp [BitVec.extractLsb'_append_eq_of_le, BitVec.extractLsb'_append_eq_right, -Nat.reduceAdd]

theorem Part.intstat_getLsbD_notice (p : Part) (i : NoticeId) : p.intstat.getLsbD i = p.notices[i].pending := by
  rw [intstat]
  match i with
  | 0 | 1 | 2 | 3 | 4 => simp [BitVec.getLsbD_append, -Nat.reduceAdd, -BitVec.getLsbD_eq_getElem]

theorem Part.intstat_getLsbD_ring (p : Part) (q : RingId) : p.intstat.getLsbD (8 + q.val) = p.rings[q].isFaulted := by
  rw [intstat]
  match q with
  | 0 | 1 | 2 | 3 => simp [BitVec.getLsbD_append, -Nat.reduceAdd, -BitVec.getLsbD_eq_getElem]

theorem State.readRegister_intstat (s : State) : s.readRegister .intstat = s.part.intstat := rfl

/-- Settles O14: the scan's leader is the context TOP names, and each field of INTSTAT is read off its append. -/
theorem topNamesTheHighestLevel : Obligations.TopNamesTheHighestLevel := by
  intro s
  rw [s.readRegister_intstat]
  obtain ⟨hlow, hmid, hhigh⟩ := s.part.intstat_unnamed
  refine ⟨fun i => ?_, ?_, s.part.intstat_top, s.part.intstat_getLsbD_notice, fun q => ?_, hlow, hmid, hhigh⟩
  · exact Part.top_eq_ofNat_iff.trans (Part.topContext_eq_some_iff.trans Part.leads_all_iff)
  · simp only [Part.top_eq_seven_iff, Part.topContext_eq_none_iff, Notice.shown_iff]
  · rw [Part.intstat_getLsbD_ring, Ring.isFaulted_eq_decide]

end Sys2Proof.Machine
end

section
/-! PROOF. What a channel unit can do at an event, as a sequence of elementary acts: every unit function of the model is
such a sequence, so a law that each act keeps is kept by every event at a unit. -/

namespace Sys2Proof.Machine

/-! ### The elementary acts of a channel unit -/

/-- The counts and flags of the active step that an event may change together. -/
structure Tally where
  strikes : Nat
  acc : Stats
  cycleCount : Nat
  oddCycle : Bool
  okCount : Nat
  edgeCount : Nat
  thresholdCount : Nat
  position : Nat
  intervalArmed : Bool
  edgeTaken : Bool

/-- The tally of a channel as it stands. -/
def Channel.tally (ch : Channel) : Tally :=
  { strikes := ch.strikes, acc := ch.acc, cycleCount := ch.cycleCount, oddCycle := ch.oddCycle
    okCount := ch.okCount, edgeCount := ch.edgeCount, thresholdCount := ch.thresholdCount
    position := ch.position, intervalArmed := ch.intervalArmed, edgeTaken := ch.edgeTaken }

/-- A channel with another tally. -/
def Channel.tallied (ch : Channel) (t : Tally) : Channel :=
  { ch with
    strikes := t.strikes, acc := t.acc, cycleCount := t.cycleCount, oddCycle := t.oddCycle
    okCount := t.okCount, edgeCount := t.edgeCount, thresholdCount := t.thresholdCount
    position := t.position, intervalArmed := t.intervalArmed, edgeTaken := t.edgeTaken }

/-- A channel with another counter and prescaler phase. -/
def Channel.at (ch : Channel) (counter phase : Nat) : Channel :=
  { ch with counter := counter, phase := phase }

/-- A unit that composes the FLUSH or FAULT `d`: staged, or pending where no slot can take it (R20, R25). -/
def UnitView.compose (x : UnitContext) (d : Draft) (u : UnitView) : UnitView :=
  if u.canStage x then u.stage d else { u with ch := { u.ch with pendingReport := some d } }

/-- The window emptied behind the active step (R20). -/
def Channel.flushed (ch : Channel) : Channel :=
  { ch with queue := [], armed := .none, evaluation := .none }

/-- A channel that is CLOSED or SUBORDINATE takes no part in events of steps (R3). -/
abbrev Channel.isShut (ch : Channel) : Prop := ch.state = .closed ∨ ch.state = .subordinate

/-- One elementary act of the channel unit with context `x`. -/
inductive UnitView.Act (x : UnitContext) (u : UnitView) : UnitView → Prop
  /-- the active step's counts move, and a CYCLE mark may be emitted -/
  | tallies (t : Tally) (mark : Bool) (running : u.ch.active.isSome = true)
      (taken : u.ch.edgeTaken = true → t.edgeTaken = true) :
      Act x u { u with ch := u.ch.tallied t, emitted := u.emitted || mark }
  /-- a capture-class entry is offered (R106) -/
  | offers (body : EntryBody) (running : u.ch.active.isSome = true) (kind : body.isFinal = false) :
      Act x u (u.offerCapture x body)
  /-- the counter and the phase restart (R27, R45, R46, R60) -/
  | zeroes (counted : Bool) (running : u.ch.active.isSome = true)
      (kept : u.ch.counted = true → counted = true) :
      Act x u { u with ch := { u.ch.at 0 0 with counted := counted } }
  /-- the active step ends, at the counter and phase of its last event (R15) -/
  | ends (e : Step) (counter phase : Nat) (status : DoneStatus) (running : u.ch.active = some e)
      (free : u.ch.halt = none ∨ e.record.isKind .position = true) :
      Act x u ({ u with ch := u.ch.at counter phase }.endActive x status false)
  /-- the active step ends HALTED, and the channel with it (R21, R22) -/
  | halts (h : HaltRequest) (counter phase : Nat) (forced : Bool)
      (asked : u.ch.halt = some h
        ∨ u.ch.active.isSome = true ∧ u.ch.queue = [] ∧ u.ch.armed = .none ∧ u.ch.evaluation = .none) :
      Act x u ({ u with ch := { u.ch.at counter phase with halt := some h } }.endHalted x forced)
  /-- a halt request is recorded behind the active step, which is no POSITION step (R20, R67) -/
  | requests (e : Step) (h : HaltRequest) (running : u.ch.active = some e)
      (kind : e.record.isKind .position = false) (flushed : u.ch.queue = []) :
      Act x u { u with ch := { u.ch with halt := some h } }
  /-- the window is flushed (R20) -/
  | flushes : Act x u { u with ch := u.ch.flushed }
  /-- a FLUSH or a FAULT is composed (R20, R25) -/
  | composes (d : Draft) (shut : ¬ u.ch.isShut) (own : d.channel = x.id) (kind : d.body.mayPend = true) :
      Act x u (u.compose x d)
  /-- the channel becomes STOPPED with nothing left (R20, R25) -/
  | stops (told : Option HaltReport) (shut : ¬ u.ch.isShut) (idle : u.ch.active = none) (empty : u.ch.queue = []) :
      Act x u { u with told := told, ch := { u.ch with state := .stopped, halt := none } }
  /-- the STOPPED channel becomes CLOSED (R22) -/
  | closes (stopped : u.ch.state = .stopped) : Act x u (u.closeNow x)
  /-- a halt overtakes a read in flight (R20) -/
  | stales : Act x u { u with ch := { u.ch with stale := u.ch.stale || u.ch.fetchInFlight } }
  /-- the armed step is validated (R8) -/
  | arms (e : Step) (rest : List Step) (steps : u.ch.noSteps = false) (head : u.ch.queue = e :: rest)
      (fresh : u.ch.armed = .none) : Act x u (u.arm x e)
  /-- the armed step is removed (R10) -/
  | removes (e : Step) (rest : List Step) (status : DoneStatus) (value : Nat) (time : Ticks)
      (steps : u.ch.noSteps = false) (head : u.ch.queue = e :: rest)
      (armed : u.ch.armed = .removal status value time) (room : u.canStage x = true) :
      Act x u (u.remove x e status value time)
  /-- the start of the armed step is due, or its condition is evaluated (R11, R77) -/
  | begins (e : Step) (rest : List Step) (steps : u.ch.noSteps = false) (head : u.ch.queue = e :: rest)
      (armed : u.ch.armed = .good) (idle : u.ch.active = none) (fresh : u.ch.evaluation = .none) :
      Act x u (u.beginStart x e)
  /-- the start that is due finds the reserved slot occupied (R12) -/
  | holds (late : Bool) (armed : u.ch.armed = .due late false) :
      Act x u { u with ch := { u.ch with armed := .due late true } }
  /-- the armed step starts (R14) -/
  | starts (e : Step) (rest : List Step) (late held : Bool) (steps : u.ch.noSteps = false)
      (head : u.ch.queue = e :: rest) (armed : u.ch.armed = .due late held) (idle : u.ch.active = none)
      (free : u.pool.reservedBusy x.id = false) : Act x u (u.start e late held)
  /-- the condition of the waiting step is satisfied (R79, R80) -/
  | wakes (waits : u.ch.evaluation ≠ .none) :
      Act x u { u with ch := { u.ch with evaluation := .none, armed := .due false false } }
  /-- the waiting step times out (R81) -/
  | timesOut (e : Step) (rest : List Step) (waits : u.ch.evaluation ≠ .none) (head : u.ch.queue = e :: rest) :
      Act x u { u with ch := { u.ch with
        evaluation := .none, armed := .removal .markTimeout e.record.startTimeout.toNat x.clock.tb } }
  /-- the pending report is staged (R22, R23) -/
  | reports (d : Draft) (pending : u.ch.pendingReport = some d) (room : u.canStage x = true) :
      Act x u { u.stage d with
        told := d.haltReport
        ch := { (u.stage d).ch with
          pendingReport := none
          bound := if (u.stage d).ch.state = .closed then none else (u.stage d).ch.bound } }

/-- A sequence of acts of one unit within one event. -/
abbrev UnitView.Runs (x : UnitContext) : UnitView → UnitView → Prop := Relation.ReflTransGen (UnitView.Act x)

theorem UnitView.Act.runs {x : UnitContext} {u v : UnitView} (h : u.Act x v) : u.Runs x v :=
  Relation.ReflTransGen.single h

/-- What every act keeps, every sequence of acts keeps. -/
theorem UnitView.Runs.keeps {P : UnitView → Prop} {x : UnitContext} {u v : UnitView} (h : u.Runs x v)
    (act : ∀ u v, u.Act x v → P u → P v) (hu : P u) : P v := by
  induction h with
  | refl => exact hu
  | tail _ hact ih => exact act _ _ hact ih

/-! ### The turns of a unit -/

theorem Channel.noSteps_eq_false {ch : Channel} :
    ch.noSteps = false ↔ ch.state ≠ .closed ∧ ch.state ≠ .stopped ∧ ch.state ≠ .subordinate ∧ ch.halt = none := by
  simp [Channel.noSteps, and_assoc]

theorem Channel.not_isShut_of_steps {ch : Channel} (h : ch.noSteps = false) : ¬ ch.isShut := by
  obtain ⟨hc, -, hs, -⟩ := Channel.noSteps_eq_false.1 h
  exact fun h => h.elim hc hs

theorem UnitView.stopOnFault_eq_compose (x : UnitContext) (u : UnitView) :
    u.stopOnFault x = { u.compose x (x.draft (.fault u.ch.fetchIndex)) with
      ch := { (u.compose x (x.draft (.fault u.ch.fetchIndex))).ch with state := .stopped } } := rfl

theorem UnitView.stage_ch (u : UnitView) (d : Draft) :
    ∃ seq missed, (u.stage d).ch = { u.ch with seq := seq, missed := missed } := by
  obtain ⟨-, h⟩ | ⟨q, -, h⟩ := u.admitted_cases (if u.pool.hasShared then .shared else .reserved) d
  · exact ⟨u.ch.seq, u.ch.missed, by rw [UnitView.stage, h]⟩
  · exact ⟨_, _, by rw [UnitView.stage, h]; rfl⟩

theorem UnitView.compose_ch (x : UnitContext) (d : Draft) (u : UnitView) :
    ∃ seq missed pending, (u.compose x d).ch
      = { u.ch with seq := seq, missed := missed, pendingReport := pending } := by
  unfold UnitView.compose
  split
  · obtain ⟨seq, missed, h⟩ := u.stage_ch d
    exact ⟨seq, missed, u.ch.pendingReport, h⟩
  · exact ⟨u.ch.seq, u.ch.missed, _, rfl⟩

theorem UnitView.runs_tally {x : UnitContext} {u : UnitView} (t : Tally) (running : u.ch.active.isSome = true)
    (taken : u.ch.edgeTaken = true → t.edgeTaken = true) : u.Runs x { u with ch := u.ch.tallied t } := by
  simpa using (Act.tallies (x := x) t false running taken).runs

theorem UnitView.runs_cycleMark {x : UnitContext} {u : UnitView} (r : StepRecord)
    (running : u.ch.active.isSome = true) : u.Runs x (u.cycleMark r) :=
  (Act.tallies u.ch.tally r.markCycle running id).runs

theorem UnitView.offerCapture_active (x : UnitContext) (body : EntryBody) (u : UnitView) :
    (u.offerCapture x body).ch.active = u.ch.active := by
  obtain ⟨_, _, _, h⟩ := u.offerCapture_frame x body
  rw [h]

/-- The count of an edge: the position moves, a WRAP and a THRESHOLD may be offered, and the threshold events count
(R62 to R64). -/
theorem UnitView.runs_countEdge {x : UnitContext} {u : UnitView} (r : StepRecord)
    (running : u.ch.active.isSome = true) : u.Runs x (u.countEdge x r) := by
  have moved := runs_tally (x := x) (u := u)
    { u.ch.tally with position := u.nextPosition x, edgeTaken := true } running fun _ => rfl
  have offer : ∀ {v : UnitView} (b : Bool) (body : EntryBody), body.isFinal = false → u.Runs x v →
      v.ch.active.isSome = true →
      u.Runs x (if b then v.offerCapture x body else v)
        ∧ (if b then v.offerCapture x body else v).ch.active.isSome = true := by
    intro v b body hb hv ha
    cases b
    · exact ⟨hv, ha⟩
    · exact ⟨hv.tail (.offers body ha hb), by simpa [offerCapture_active] using ha⟩
  obtain ⟨hwrap, hactive⟩ := offer
    (wraps x.wide (countsDown (x.clock.rises u.ch.bLine) (x.clock.before u.ch.aLine)) u.ch.position)
    (.wrap r.tag (countsDown (x.clock.rises u.ch.bLine) (x.clock.before u.ch.aLine))) rfl moved running
  unfold UnitView.countEdge
  split
  · obtain ⟨hoffered, hactive⟩ := offer true (.threshold r.tag (u.nextPosition x != r.top.toNat)
      (countsDown (x.clock.rises u.ch.bLine) (x.clock.before u.ch.aLine)) (u.nextPosition x)) rfl hwrap hactive
    exact hoffered.tail (.tallies { Channel.tally _ with thresholdCount := _ + 1 } r.markCycle hactive id)
  · exact hwrap

theorem UnitView.runs_endActive {x : UnitContext} {u : UnitView} {e : Step} (status : DoneStatus)
    (running : u.ch.active = some e) (free : u.ch.halt = none ∨ e.record.isKind .position = true) :
    u.Runs x (u.endActive x status false) :=
  (Act.ends e u.ch.counter u.ch.phase status running free).runs

theorem UnitView.countEdge_ch (x : UnitContext) (r : StepRecord) (u : UnitView) :
    (u.countEdge x r).ch.active = u.ch.active ∧ (u.countEdge x r).ch.halt = u.ch.halt := by
  obtain ⟨_, _, _, h⟩ := u.countEdge_frame x r
  simp [h]

theorem Channel.stopped_halt_none {ch : Channel} (h : ch.halt = none) :
    ({ ch with state := .stopped, halt := none } : Channel) = { ch with state := .stopped } := by
  rw [← h]

theorem UnitView.runs_stopOnFault {x : UnitContext} {u : UnitView} (steps : u.ch.noSteps = false)
    (idle : u.ch.active = none) (empty : u.ch.queue = []) : u.Runs x (u.stopOnFault x) := by
  have hshut := Channel.not_isShut_of_steps steps
  obtain ⟨-, -, -, hhalt⟩ := Channel.noSteps_eq_false.1 steps
  obtain ⟨seq, missed, pending, hch⟩ := u.compose_ch x (x.draft (.fault u.ch.fetchIndex))
  have hcomposed := Act.composes (x := x) (u := u) (x.draft (.fault u.ch.fetchIndex)) hshut rfl rfl
  have hstopped := Act.stops (x := x) (u := u.compose x (x.draft (.fault u.ch.fetchIndex)))
    (u.compose x (x.draft (.fault u.ch.fetchIndex))).told (by rw [hch]; exact hshut) (by rw [hch]; exact idle)
    (by rw [hch]; exact empty)
  have hnone : (u.compose x (x.draft (.fault u.ch.fetchIndex))).ch.halt = none := by
    rw [hch]
    exact hhalt
  rw [stopOnFault_eq_compose, ← Channel.stopped_halt_none hnone]
  exact hcomposed.runs.tail hstopped

theorem UnitView.runs_supersede {x : UnitContext} {u : UnitView} {a : Step} (e : Step)
    (running : u.ch.active = some a) (halt : u.ch.halt = none) : u.Runs x (u.supersede x a e) := by
  obtain ⟨-, -, -, h⟩ | ⟨-, h⟩ := UnitView.supersede_cases x a e u
  · obtain ⟨hactive, hhalt⟩ := u.countEdge_ch x a.record
    rw [h]
    exact (runs_countEdge a.record (by simp [running])).trans
      (runs_endActive .superseded (hactive.trans running) (.inl (hhalt.trans halt)))
  · rw [h]
    exact runs_endActive .superseded running (.inl halt)

theorem UnitView.runs_turn {x : UnitContext} {u v : UnitView} (h : u.turn x = some v) : u.Runs x v := by
  obtain ⟨hsteps, h⟩ := turn_cases h
  obtain ⟨-, -, -, hhalt⟩ := Channel.noSteps_eq_false.1 hsteps
  obtain ⟨hq, ha, -, rfl⟩ | ⟨e, rest, hq, h⟩ := h
  · exact runs_stopOnFault hsteps ha hq
  · obtain ⟨ha, rfl⟩ | ⟨status, value, time, ha, hroom, rfl⟩ | ⟨a, -, hact, ⟨-, rfl⟩ | ⟨-, rfl⟩⟩
      | ⟨ha, hact, hev, rfl⟩ | ⟨late, ha, -, -, rfl⟩ | ⟨late, held, ha, hact, hfree, rfl⟩ := h
    · exact (Act.arms e rest hsteps hq ha).runs
    · exact (Act.removes e rest status value time hsteps hq ha hroom).runs
    · exact runs_endActive .preempted hact (.inl hhalt)
    · exact runs_supersede e hact hhalt
    · exact (Act.begins e rest hsteps hq ha hact hev).runs
    · exact (Act.holds late ha).runs
    · exact (Act.starts e rest late held hsteps hq ha hact hfree).runs

theorem UnitView.runs_handOver {x : UnitContext} (u : UnitView) : u.Runs x (u.handOver x) :=
  proceed_keeps (P := fun v => u.Runs x v) (fun _ _ hv hturn => hv.trans (runs_turn hturn)) turnLimit u .refl

theorem UnitView.runs_endAndHandOver {x : UnitContext} {u : UnitView} {e : Step} (status : DoneStatus)
    (running : u.ch.active = some e) (free : u.ch.halt = none ∨ e.record.isKind .position = true) :
    u.Runs x (u.endAndHandOver x status) :=
  (runs_endActive status running free).trans (runs_handOver _)

/-! ### Events of the active step -/

/-- A boundary, reached with another counter and phase: the step ends HALTED, ends and hands over, or goes on
(R28, R47). -/
theorem UnitView.runs_boundary {x : UnitContext} {u : UnitView} {e : Step} (counter phase : Nat) (r : StepRecord)
    (natural : Option DoneStatus) (goOn : UnitView → UnitView) (running : u.ch.active = some e)
    (on : u.Runs x (goOn { u with ch := u.ch.at counter phase })) :
    u.Runs x ({ u with ch := u.ch.at counter phase }.boundary x r natural goOn) := by
  have ends : u.ch.halt = none → ∀ status,
      u.Runs x ({ u with ch := u.ch.at counter phase }.endAndHandOver x status) := fun hhalt status =>
    (Act.ends e counter phase status running (.inl hhalt)).runs.trans (runs_handOver _)
  unfold UnitView.boundary
  split
  next hhalt =>
    obtain ⟨h, hh⟩ := Option.isSome_iff_exists.1 hhalt
    have heq : ({ u with ch := u.ch.at counter phase } : UnitView)
        = { u with ch := { u.ch.at counter phase with halt := some h } } := by
      rw [← hh]
    rw [heq]
    exact (Act.halts (u := u) h counter phase false (.inl hh)).runs
  next hhalt =>
    have hhalt : u.ch.halt = none := by simpa [Channel.at] using hhalt
    split
    · exact ends hhalt _
    · split
      · exact ends hhalt _
      · exact on

theorem UnitView.runs_boundary_here {x : UnitContext} {u : UnitView} {e : Step} (r : StepRecord)
    (natural : Option DoneStatus) (goOn : UnitView → UnitView) (running : u.ch.active = some e)
    (on : u.Runs x (goOn u)) : u.Runs x (u.boundary x r natural goOn) :=
  runs_boundary u.ch.counter u.ch.phase r natural goOn running on

theorem UnitView.runs_cycleEnd {x : UnitContext} (u : UnitView) : u.Runs x (u.cycleEnd x) := by
  unfold UnitView.cycleEnd
  split
  · exact .refl
  next e he =>
    have hcounted := Act.tallies (x := x) (u := u)
      { u.ch.tally with cycleCount := addUpTo countLimit u.ch.cycleCount, oddCycle := !u.ch.oddCycle }
      e.record.markCycle (by simp [he]) id
    exact hcounted.runs.trans <| runs_boundary_here (e := e) e.record _ _ he
      (Act.zeroes true (by simp [Channel.tallied, he]) fun _ => rfl).runs

/-- An OK capture is offered unless the step is quiet (R52). -/
theorem UnitView.runs_offerOk {x : UnitContext} {u : UnitView} (r : StepRecord) (v : Nat)
    (running : u.ch.active.isSome = true) : u.Runs x (u.offerOk x r v) := by
  unfold UnitView.offerOk
  split
  · exact .refl
  · exact (Act.offers _ running rfl).runs

theorem UnitView.offerOk_active (x : UnitContext) (r : StepRecord) (v : Nat) (u : UnitView) :
    (u.offerOk x r v).ch.active = u.ch.active := by
  unfold UnitView.offerOk
  split
  · rfl
  · exact u.offerCapture_active x _

/-- The tally after an OK capture. -/
def Channel.okTally (ch : Channel) (r : StepRecord) (v : Nat) (taken : Bool) : Tally :=
  { ch.tally with
    strikes := 0, okCount := addUpTo countLimit ch.okCount
    acc := if r.summary then ch.acc.enter v else ch.acc, edgeTaken := taken }

theorem UnitView.runs_captureEdge {x : UnitContext} (u : UnitView) : u.Runs x (u.captureEdge x) := by
  unfold UnitView.captureEdge
  split
  · exact .refl
  next e he =>
    have hsome : u.ch.active.isSome = true := by simp [he]
    have hzero := (Act.zeroes (x := x) (u := u) u.ch.counted hsome id).runs
    split
    · have hok := hzero.trans (runs_tally (x := x) (u.ch.okTally e.record u.ch.counter true) hsome fun _ => rfl)
      have hoffered := hok.trans (runs_offerOk e.record u.ch.counter hsome)
      refine (hoffered.trans (runs_cycleMark e.record ?_)).trans (runs_boundary_here (e := e) e.record _ _ ?_ .refl)
      · rw [offerOk_active]
        exact hsome
      · exact (offerOk_active ..).trans he
    · exact hzero.trans (runs_tally (x := x) { u.ch.tally with intervalArmed := true, edgeTaken := true } hsome
        fun _ => rfl)

theorem UnitView.runs_overrange {x : UnitContext} (u : UnitView) : u.Runs x (u.overrange x) := by
  unfold UnitView.overrange
  split
  · exact .refl
  next e he =>
    have hsome : u.ch.active.isSome = true := by simp [he]
    have hoffered := (Act.offers (x := x)
      (.capture e.record.tag true (!u.ch.intervalArmed) e.record.top.toNat) hsome rfl).runs
    have hactive := (u.offerCapture_active x
      (.capture e.record.tag true (!u.ch.intervalArmed) e.record.top.toNat)).trans he
    have hstruck := hoffered.tail (Act.tallies (x := x)
      { Channel.tally _ with intervalArmed := false, strikes := addUpTo 15 u.ch.strikes } e.record.markCycle
      (by rw [hactive]; rfl) id)
    exact hstruck.trans (runs_boundary e.record.top.toNat 0 e.record _ _ hactive
      (Act.zeroes true (by simp [Channel.tallied, hactive]) fun _ => rfl).runs)

theorem UnitView.runs_windowEdge {x : UnitContext} {u : UnitView} (running : u.ch.active.isSome = true) :
    u.Runs x (u.windowEdge x) :=
  runs_tally { u.ch.tally with edgeCount := addUpTo (greatestValue x.wide) u.ch.edgeCount, edgeTaken := true } running
    fun _ => rfl

theorem UnitView.runs_nextWindow {x : UnitContext} {u : UnitView} (running : u.ch.active.isSome = true) :
    u.Runs x u.nextWindow :=
  (Act.zeroes true running fun _ => rfl).runs.trans
    (runs_tally { Channel.tally _ with edgeCount := 0 } running id)

theorem UnitView.runs_windowEnd {x : UnitContext} (u : UnitView) : u.Runs x (u.windowEnd x) := by
  unfold UnitView.windowEnd
  split
  · exact .refl
  next e he =>
    have hsome : u.ch.active.isSome = true := by simp [he]
    have close : ∀ {v : UnitView} (natural : Option DoneStatus), u.Runs x v → v.ch.active = some e →
        u.Runs x ((v.cycleMark e.record).boundary x e.record natural UnitView.nextWindow) := fun natural hv ha =>
      (hv.trans (runs_cycleMark e.record (by simp [ha]))).trans (runs_boundary_here (e := e) e.record natural _ ha
        (runs_nextWindow (by simp [cycleMark, ha])))
    dsimp only
    split
    · have hok := runs_tally (x := x) (u := u) (u.ch.okTally e.record u.ch.edgeCount u.ch.edgeTaken) hsome id
      exact close _ (hok.trans (runs_offerOk e.record u.ch.edgeCount hsome)) ((offerOk_active ..).trans he)
    · have hactive := (u.offerCapture_active x (.capture e.record.tag true false u.ch.edgeCount)).trans he
      have hoffered := (Act.offers (x := x) (.capture e.record.tag true false u.ch.edgeCount) hsome rfl).runs
      exact close _ (hoffered.trans (runs_tally
        { Channel.tally _ with strikes := addUpTo 15 u.ch.strikes } (by rw [hactive]; rfl) id)) hactive

theorem UnitView.runs_countStep {x : UnitContext} {u : UnitView}
    (kind : ∀ e ∈ u.ch.active, e.record.isKind .position = true) : u.Runs x (u.countStep x) := by
  unfold UnitView.countStep
  split
  · exact .refl
  next e he =>
    have hcounted := runs_countEdge (x := x) e.record (by simp [he] : u.ch.active.isSome = true)
    dsimp only
    split
    · exact hcounted.trans
        (runs_endAndHandOver .done ((u.countEdge_ch x e.record).1.trans he) (.inr (kind e he)))
    · exact hcounted

/-! ### Conditions, answers and halts -/

theorem UnitView.runs_satisfied {x : UnitContext} {u : UnitView} (waits : u.ch.evaluation ≠ .none) :
    u.Runs x (u.satisfied x) :=
  (Act.wakes waits).runs.trans (runs_handOver _)

theorem UnitView.runs_markTimeout {x : UnitContext} {u : UnitView} (waits : u.ch.evaluation ≠ .none) :
    u.Runs x (u.markTimeout x) := by
  unfold UnitView.markTimeout
  split
  · exact .refl
  next e rest hq => exact (Act.timesOut e rest waits hq).runs.trans (runs_handOver _)

theorem UnitView.runs_offerAgain {x : UnitContext} (u : UnitView) : u.Runs x (u.offerAgain x) := by
  unfold UnitView.offerAgain
  split
  · exact runs_handOver u
  next d hd =>
    split
    next hroom => exact (Act.reports d hd hroom).runs
    · exact .refl

/-- A unit whose step read has returned, with an error where `fault` is set. -/
def UnitView.fetched (fault : Bool) (u : UnitView) : UnitView :=
  { u with ch := { u.ch with fetchInFlight := false, stale := false, fetchFault := u.ch.fetchFault || fault } }

/-- The record `r` joins the end of the window, with the index it was read from (R6). -/
def UnitView.joined (r : StepRecord) (u : UnitView) : UnitView :=
  { u with ch := { u.ch with
    queue := u.ch.queue ++ [(⟨u.ch.fetchIndex, r⟩ : Step)]
    fetchIndex := bump u.ch.fetchIndex u.ch.ringSize } }

/-- Everything the return of a step read does: it is discarded; its error is noted; or its record joins the window
(R6, R24). -/
theorem UnitView.readReturns_cases (x : UnitContext) (result : Option StepRecord) (u : UnitView) :
    (u.ch.stale = true ∨ u.ch.noSteps = true) ∧ u.readReturns x result = u.fetched false
      ∨ u.ch.stale = false ∧ u.ch.noSteps = false
        ∧ (result = none ∧ u.readReturns x result = (u.fetched true).handOver x
          ∨ ∃ r, result = some r ∧ u.readReturns x result = ((u.fetched false).joined r).handOver x) := by
  unfold UnitView.readReturns UnitView.fetched UnitView.joined
  by_cases h : (u.ch.stale || u.ch.noSteps) = true
  · exact .inl ⟨by simpa using h, by simp [h]⟩
  · refine .inr ⟨by simp_all, by simp_all, ?_⟩
    cases result <;> simp [h]

/-- The return of a step read that brings no record for the channel: the fetcher's flags clear, an error may be noted, and
the unit goes on from there. -/
theorem UnitView.runs_readReturns_none {x : UnitContext} (u : UnitView) :
    ∃ fault, (fault = true → ¬ u.ch.isShut) ∧ (u.fetched fault).Runs x (u.readReturns x none) := by
  obtain ⟨-, h⟩ | ⟨-, hsteps, ⟨-, h⟩ | ⟨r, hr, -⟩⟩ := u.readReturns_cases x none
  · exact ⟨false, nofun, by rw [h]⟩
  · exact ⟨true, fun _ => Channel.not_isShut_of_steps hsteps, by rw [h]; exact runs_handOver _⟩
  · cases hr

theorem UnitView.runs_endHalted {x : UnitContext} (forced : Bool) (u : UnitView) :
    u.Runs x (u.endHalted x forced) := by
  cases hh : u.ch.halt with
  | none =>
    have heq : u.endHalted x forced = u := by simp [UnitView.endHalted, hh]
    rw [heq]
  | some h =>
    have heq : u = { u with ch := { u.ch.at u.ch.counter u.ch.phase with halt := some h } } := by
      rw [← hh]; rfl
    have := (Act.halts (x := x) (u := u) h u.ch.counter u.ch.phase forced (.inl hh)).runs
    rwa [← heq] at this

theorem UnitView.runs_haltActive {x : UnitContext} {u : UnitView} {e : Step} (close boundary deadline : Bool)
    (running : u.ch.active = some e) : u.Runs x (u.haltActive x e close boundary deadline) := by
  have hflush := (Act.flushes (x := x) (u := u)).runs
  unfold UnitView.haltActive
  dsimp only
  split
  · exact hflush.tail (.halts (u.ch.mergedRequest close boundary deadline) u.ch.counter u.ch.phase false
      (.inr ⟨by simp [Channel.flushed, running], rfl, rfl, rfl⟩))
  next hkind =>
    simp only [Bool.or_eq_true, not_or, Bool.not_eq_true] at hkind
    exact hflush.tail (.requests e _ running hkind.2 rfl)

/-- A stopped channel closes at the event where the request's purpose is CLOSE (R22). -/
theorem UnitView.runs_stopNow {x : UnitContext} {u : UnitView} (told : Option HaltReport) (close : Bool)
    (shut : ¬ u.ch.isShut) (idle : u.ch.active = none) (empty : u.ch.queue = []) :
    u.Runs x ({ u with told := told }.stopNow x close) := by
  have hstop := (Act.stops (x := x) told shut idle empty).runs
  cases close
  · exact hstop
  · exact hstop.tail (.closes rfl)

theorem UnitView.runs_flushIdle {x : UnitContext} {u : UnitView} (close : Bool) (shut : ¬ u.ch.isShut)
    (idle : u.ch.active = none) : u.Runs x (u.flushIdle x close) := by
  let d := x.draft (.flush u.ch.queue.length (firstTagOf u.ch.queue) u.ch.fetchIndex u.ch.fetchFault)
  let v : UnitView := { u with ch := u.ch.flushed }
  have hcompose := (Act.flushes (x := x) (u := u)).runs.tail (.composes (u := v) d shut rfl rfl)
  obtain ⟨seq, missed, pending, hch⟩ := v.compose_ch x d
  have hstop := fun told => hcompose.trans (runs_stopNow (x := x) told close (by rw [hch]; exact shut)
    (by rw [hch]; exact idle) (by rw [hch]; rfl))
  have heq : u.flushIdle x close
      = UnitView.stopNow x close { v.compose x d with told := if v.canStage x then d.haltReport else u.told } := by
    simp only [UnitView.flushIdle, UnitView.compose, v, d, Channel.flushed]
    by_cases hroom : UnitView.canStage x v <;> simp only [v, Channel.flushed] at hroom <;> simp only [hroom] <;> rfl
  rw [heq]
  exact hstop _

theorem UnitView.runs_takeHalt {x : UnitContext} (close boundary deadline : Bool) (u : UnitView) :
    u.Runs x (u.takeHalt x close boundary deadline) := by
  have hstale := (Act.stales (x := x) (u := u)).runs
  have opened : ¬ u.ch.isShut → u.Runs x (match u.ch.active with
      | some e => UnitView.haltActive x e close boundary deadline
          { u with ch := { u.ch with stale := u.ch.stale || u.ch.fetchInFlight } }
      | none => UnitView.flushIdle x close
          { u with ch := { u.ch with stale := u.ch.stale || u.ch.fetchInFlight } }) := by
    intro hshut
    split
    next e he => exact hstale.trans (runs_haltActive close boundary deadline he)
    next he => exact hstale.trans (runs_flushIdle close hshut he)
  unfold UnitView.takeHalt
  cases hs : u.ch.state
  case closed | subordinate => exact hstale
  case stopped =>
    cases close
    · exact hstale
    · exact hstale.tail (.closes hs)
  case idle | waiting | active | held => exact opened (by simp [Channel.isShut, hs])

end Sys2Proof.Machine
end

section
/-! PROOF. What a command can do to the part, as a sequence of elementary effects: a law that each effect keeps is kept by
every command but the resets and the end of a tick, which change the whole part at once. -/

namespace Sys2Proof.Machine

/-! ### The elementary effects of a command -/

/-- What an admin command can do to the part that has taken it (R137 and the commands' own rows). -/
inductive Part.CommandEffect (k : Clock) (i : Instr) (p : Part) : Part → Prop
  | completes (status : AdminStatus) (w : Results) : CommandEffect k i p (p.complete status w)
  | createsRing (q : RingId) (base : Word32) (size : Nat) (n : Notice) (w : Results)
      (absent : p.rings[q].state = .absent) (legal : legalSize 16 4096 size = true) :
      CommandEffect k i p (((p.setRing q (Ring.created base size)).setNotice (noticeOf q) n).complete .ok w)
  | deletesRing (q : RingId) (n : Notice) (w : Results) :
      CommandEffect k i p (((p.setRing q Ring.reset).setNotice (noticeOf q) n).complete .ok w)
  | waitsOnRing (q : RingId) : CommandEffect k i p (p.waitOnRing q)
  | restartsRing (q : RingId) (present : p.rings[q].state ≠ .absent) : CommandEffect k i p (p.restart q)
  | setsNotice (j : NoticeId) (n : Notice) (w : Results) :
      CommandEffect k i p ((p.setNotice j n).complete .ok w)
  | opens (c : ChanId) (cls : ChClass) (b : LineId) (a : Option LineId) (q : RingId) (r : CommandRecord) (w : Results)
      (legal : legalSize 4 1024 (r.half 10) = true) (inside : r.half 16 < r.half 10)
      (claims : claimsOf r = some (b, a)) (closed : p.chans[c].state = .closed)
      (free : cls = .output → p.lineOwned (some b) = false ∧ p.lineOwned a = false) :
      CommandEffect k i p ((p.openChannel c cls b a q r).complete .ok w)
  | passesHalt (c : ChanId) (close boundary : Bool) (deadline : Word32) :
      CommandEffect k i p (p.passHalt k c close boundary deadline)
  | closesStopped (c : ChanId) (boundary : Bool) (w : Results) (stopped : p.chans[c].state = .stopped) :
      CommandEffect k i p ((p.atUnit k c fun x u => u.takeHalt x true boundary false).complete .ok w)
  | resumes (c : ChanId) (index : Nat) (w : Results) (stopped : p.chans[c].state = .stopped)
      (inside : index < p.chans[c].ringSize) :
      CommandEffect k i p
        ((p.setChan c { p.chans[c] with state := .idle, fetchIndex := index, fetchFault := false }).complete .ok w)
  | joins (r : CommandRecord) (command : i = .pairJoin r) (j : Fin 4) (w : Results)
      (rest : p.chans[evenOf j].atRest = true) (closed : p.chans[oddOf j].state = .closed) :
      CommandEffect k i p ((({ p with pairs := p.pairs.set j true } : Part).setChan (oddOf j)
        (p.chans[oddOf j].blank .subordinate)).complete .ok w)
  | splits (r : CommandRecord) (command : i = .pairSplit r) (j : Fin 4) (w : Results) (joined : p.pairs[j] = true)
      (rest : p.chans[evenOf j].atRest = true) :
      CommandEffect k i p (((({ p with pairs := p.pairs.set j false } : Part).setChan (oddOf j)
        (p.chans[oddOf j].blank .closed)).setChan (evenOf j) p.chans[evenOf j].narrowed).complete .ok w)
  | setsPosition (c : ChanId) (n : Nat) (w : Results) (closed : p.chans[c].state ≠ .closed)
      (subordinate : p.chans[c].state ≠ .subordinate) :
      CommandEffect k i p ((p.setChan c { p.chans[c] with position := n }).complete .ok w)
  | parks (r : CommandRecord) (command : i = .linePark r) (l : LineId) (level : Park) (w : Results) :
      CommandEffect k i p (({ p with lines := p.lines.set l { p.lines[l] with park := level } } : Part).complete .ok w)

/-- One elementary effect of command `i` on the part. A CQ_RESET takes effect after the write of its ring: that this
ring is not ABSENT follows from the laws of the rings, and an effect says it where these are `known`. -/
inductive Part.Effect (known : Prop) (k : Clock) (i : Instr) (p : Part) : Part → Prop
  /-- an open choice is noted -/
  | chooses (used : Bool) : Effect known k i p (p.noteChoice used)
  /-- the list of late answers to come changes (R161) -/
  | withdraws (withdrawn : List TxKind) : Effect known k i p { p with port := { p.port with withdrawn := withdrawn } }
  /-- the port grants (R159) -/
  | grants : Effect known k i p (p.grant k.tb)
  /-- the transaction ends and its result goes to no block, or to a channel unit (R163) -/
  | ends : Effect known k i p p.endTransaction
  /-- an event at a channel unit -/
  | unit (c : ChanId) (f : UnitContext → UnitView → UnitView)
      (runs : (p.view c).Runs (p.context k c) (f (p.context k c) (p.view c))) : Effect known k i p (p.atUnit k c f)
  /-- a step read returns to a channel unit with no record for it (R6, R24) -/
  | returns (c : ChanId) (fault : Bool) (f : UnitContext → UnitView → UnitView) (idle : p.port.current = none)
      (open' : fault = true → ¬ p.chans[c].isShut)
      (runs : ((p.view c).fetched fault).Runs (p.context k c) (f (p.context k c) (p.view c))) :
      Effect known k i p (p.atUnit k c f)
  /-- a live step read brings a record, which joins the window (R6) -/
  | joins (w : Slot) (command : i = .stepReadReturn w) (c : ChanId) (r : StepRecord)
      (live : p.port.carries (.stepRead c)) (fresh : p.chans[c].stale = false) (steps : p.chans[c].noSteps = false) :
      Effect known k i p (p.endTransaction.atUnit k c fun x u => ((u.fetched false).joined r).handOver x)
  /-- a live entry write has succeeded (R114) -/
  | writes (q : RingId) (part : EntryPart) (half : Bool) (live : p.port.carries (.entryWrite q part)) :
      Effect known k i p (p.endTransaction.setRing q { p.rings[q].advance with halfWritten := half })
  /-- a live entry write has failed (R118) -/
  | writeFails (q : RingId) (part : EntryPart) (live : p.port.carries (.entryWrite q part)) :
      Effect known k i p (p.endTransaction.writeFailed q)
  /-- notice contexts change (R125, R127, R129) -/
  | notices (n : Vector Notice 5) : Effect known k i p { p with notices := n }
  /-- the head of a list leaves its slot, the entry written (R109) -/
  | drops (q : RingId) (command : i = .entryWriteDone) (idle : p.port.current = none) :
      Effect known k i p { p with pool := p.pool.dropHead q }
  /-- the rotation pointer of the pool moves (R108) -/
  | rotates (c : ChanId) : Effect known k i p { p with pool := { p.pool with rotation := c } }
  /-- a waiting CQ_RESET takes effect (R122) -/
  | restarts (q : RingId) (waits : p.admin.unit = .waiting)
      (present : known → p.rings[q].state ≠ .absent) :
      Effect known k i p (p.restart q)
  /-- the waiting command completes (R149) -/
  | completes (status : AdminStatus) (w : Results) (waits : p.admin.unit = .waiting) :
      Effect known k i p (p.complete status w)
  /-- the deadline timer stops (R149) -/
  | untimes : Effect known k i p { p with admin := { p.admin with deadline := none } }
  /-- a live ACQ write has succeeded (R138) -/
  | acqDone (live : p.port.carries .acqWrite) : Effect known k i p (p.endTransaction.acqDone k)
  /-- a live transaction of the admin unit or of the device has failed (R140) -/
  | faults (kind : TxKind) (cause : Cause) (live : p.port.carries kind)
      (own : kind = .acqWrite ∨ kind = .adminRead ∨ kind = .configRead) :
      Effect known k i p (p.endTransaction.adminFaults cause)
  /-- a live configuration read brings the block (R166) -/
  | configures (b : ConfigBlock) (live : p.port.carries .configRead) :
      Effect known k i p (p.endTransaction.configured b)
  /-- a live admin read brings a command (R135) -/
  | commands (opcode : BitVec 8) (r : CommandRecord) (q : Part) (live : p.port.carries .adminRead)
      (effect : (p.endTransaction.take opcode r).CommandEffect k i q) : Effect known k i p q
  /-- a valid POST of a step tail (R7) -/
  | postsTail (c : ChanId) (index : Nat) (valid : p.chans[c].takesTail index = true) :
      Effect known k i p (p.setChan c { p.chans[c] with tail := index })
  /-- a valid POST of a completion ring's head (R113) -/
  | postsHead (q : RingId) (index : Nat) (valid : p.rings[q].takesHead index = true) :
      Effect known k i p (p.setRing q (p.rings[q].returned index))
  /-- a valid POST of the admin tail (R136) -/
  | postsAdminTail (index : Nat) : Effect known k i p { p with admin := { p.admin with tail := index } }
  /-- a valid POST of the ACQ head (R139) -/
  | postsAcqHead (index : Nat) (valid : p.admin.takesHead index = true) :
      Effect known k i p { p with admin := p.admin.returned index }
  /-- the register window's own fields change (R169, R170) -/
  | registers (d : Device) (state : d.state = p.device.state)
      (base : (∃ v, i = .cfgbaseWrite v) ∨ d.cfgBase = p.device.cfgBase) : Effect known k i p { p with device := d }
  /-- ENABLE in DISABLED (R165) -/
  | enables (disabled : p.device.state = .disabled) : Effect known k i p { p with device := p.device.starting }
  /-- RESTART_ADMIN in RUNNING or ADMIN_FAULT (R168) -/
  | restartsAdmin (waiting : List Instr) (notices : Vector Notice 5)
      (state : p.device.state = .running ∨ p.device.state = .adminFault) :
      Effect known k i p { p.dropAdminTransaction k waiting with
        admin := { p.admin with
          unit := .idle, current := none, completion := none, deadline := none, waitingOn := .nothing }
        notices := notices
        device := p.device.starting }

/-- A sequence of effects of command `i`. -/
abbrev Part.Effects (known : Prop) (k : Clock) (i : Instr) : Part → Part → Prop :=
  Relation.ReflTransGen (Part.Effect known k i)

theorem Part.Effect.effects {known : Prop} {k : Clock} {i : Instr} {p q : Part} (h : p.Effect known k i q) :
    p.Effects known k i q :=
  Relation.ReflTransGen.single h

/-- What every effect keeps, every sequence of effects keeps. -/
theorem Part.Effects.keeps {P : Part → Prop} {known : Prop} {k : Clock} {i : Instr} {p q : Part}
    (h : p.Effects known k i q) (effect : ∀ p q, p.Effect known k i q → P p → P q) (hp : P p) : P q := by
  induction h with
  | refl => exact hp
  | tail _ he ih => exact effect _ _ he ih

/-! ### The events of a tick -/

theorem Channel.active_of_runs {ch : Channel} {f : StepRecord → Bool} (h : ch.runs f = true) :
    ∃ e, ch.active = some e ∧ ch.running = true ∧ f e.record = true := by
  unfold Channel.runs at h
  split at h
  next e he => exact ⟨e, he, by simpa using h⟩
  · cases h

theorem Channel.evaluates_of_awaitsMark {ch : Channel} (h : ch.awaitsMark = true) : ch.evaluation ≠ .none := by
  intro hn
  simp [Channel.awaitsMark, hn] at h

theorem Channel.evaluates_of_atTimeDue {ch : Channel} {k : Clock} (h : ch.atTimeDue k = true) :
    ch.evaluation ≠ .none := by
  intro hn
  simp [Channel.atTimeDue, hn] at h

theorem Channel.evaluates_of_markTimeoutDue {ch : Channel} {k : Clock} (h : ch.markTimeoutDue k = true) :
    ch.evaluation ≠ .none := by
  intro hn
  simp [Channel.markTimeoutDue, hn] at h

section
variable {known : Prop} {k : Clock} {i : Instr}

theorem Part.effects_satisfied {p : Part} {c : ChanId} (h : p.chans[c].evaluation ≠ .none) :
    p.Effects known k i (p.atUnit k c UnitView.satisfied) :=
  (Effect.unit c _ (UnitView.runs_satisfied h)).effects

/-- The closing of a step: grants, and conditions that marks satisfy (R75, R159). -/
theorem Part.effects_closeStep (p : Part) (before : Vector Bool 8) : p.Effects known k i (p.closeStep k before) :=
  closeStep_keeps (P := fun q => p.Effects known k i q) (fun _ used h => h.tail (.chooses used))
    (fun _ h => h.tail .grants)
    (fun _ _ h hc => h.trans (effects_satisfied (Channel.evaluates_of_awaitsMark hc))) p before .refl

theorem Part.effects_unitEvent {p : Part} {c : ChanId} {due : Bool} {f : UnitContext → UnitView → UnitView}
    (runs : due = true → (p.view c).Runs (p.context k c) (f (p.context k c) (p.view c))) :
    p.Effects known k i (p.unitEvent k c due f) := by
  obtain h | ⟨hdue, h⟩ := p.unitEvent_cases k c due f
  · rw [h]
  · rw [h]
    exact (Effect.unit c f (runs hdue)).effects.trans (effects_closeStep _ _)

theorem Part.effects_captureEdge (p : Part) (c : ChanId) : p.Effects known k i (p.captureEdge k c) :=
  effects_unitEvent fun _ => UnitView.runs_captureEdge _

theorem Part.effects_windowEdge (p : Part) (c : ChanId) : p.Effects known k i (p.windowEdge k c) := by
  refine effects_unitEvent fun hdue => UnitView.runs_windowEdge ?_
  obtain ⟨e, he, -⟩ := Channel.active_of_runs (Bool.and_eq_true_iff.1 hdue).2
  exact Option.isSome_iff_exists.2 ⟨e, he⟩

theorem Part.effects_countStep (p : Part) (c : ChanId) : p.Effects known k i (p.countStep k c) := by
  refine effects_unitEvent fun hdue => UnitView.runs_countStep fun e he => ?_
  exact ((Channel.countStepDue_iff he k).1 hdue).2.2.2

theorem Part.effects_cycleEnd (p : Part) (c : ChanId) : p.Effects known k i (p.cycleEnd k c) :=
  effects_unitEvent fun _ => UnitView.runs_cycleEnd _

theorem Part.effects_overrange (p : Part) (c : ChanId) : p.Effects known k i (p.overrange k c) :=
  effects_unitEvent fun _ => UnitView.runs_overrange _

theorem Part.effects_windowEnd (p : Part) (c : ChanId) : p.Effects known k i (p.windowEnd k c) :=
  effects_unitEvent fun _ => UnitView.runs_windowEnd _

theorem Part.effects_atTimeSatisfied (p : Part) (c : ChanId) : p.Effects known k i (p.atTimeSatisfied k c) :=
  effects_unitEvent fun hdue => UnitView.runs_satisfied (Channel.evaluates_of_atTimeDue hdue)

theorem Part.effects_markTimeout (p : Part) (c : ChanId) : p.Effects known k i (p.markTimeout k c) :=
  effects_unitEvent fun hdue => UnitView.runs_markTimeout (Channel.evaluates_of_markTimeoutDue hdue)

theorem Part.effects_noticeExpiry (p : Part) (j : NoticeId) : p.Effects known k i (p.noticeExpiry k j) := by
  unfold Part.noticeExpiry
  split
  · exact (Effect.notices _).effects
  · exact .refl

theorem Admin.deadlineDue_iff {a : Admin} : a.deadlineDue k = true ↔ a.unit = .waiting ∧ a.deadline = some k.tb := by
  simp [Admin.deadlineDue]

theorem Part.effects_deadlineExpiry (p : Part) : p.Effects known k i (p.deadlineExpiry k) := by
  unfold Part.deadlineExpiry
  split
  next hdue =>
    obtain ⟨hunit, -⟩ := Admin.deadlineDue_iff.1 hdue
    split
    · refine Relation.ReflTransGen.trans ?_ (effects_closeStep _ _)
      unfold Part.deadlineAt
      dsimp only
      split
      · exact (Effect.untimes.effects).tail (.unit _ _ (UnitView.runs_endHalted true _))
      · exact (Effect.untimes.effects).tail (.completes _ _ hunit)
    · exact .refl
    · exact .refl
  · exact .refl

/-! ### Answers -/

/-- The result of the outstanding transaction, where what each result does is known. -/
theorem Part.effects_ended {p : Part} {handler : TxKind → Option (Part → Part)}
    (result : ∀ kind f, handler kind = some f → p.port.carries kind → p.Effects known k i (f p.endTransaction)) :
    p.Effects known k i (p.ended k handler) := by
  obtain h | ⟨t, f, ht, hf, hd, h⟩ | ⟨t, f, ht, hf, hd, h⟩ := p.ended_cases k handler
  · rw [h]
  · rw [h]
    exact Effect.ends.effects.trans (effects_closeStep _ _)
  · rw [h]
    exact (result t.kind f hf ⟨hd, by simp [ht]⟩).trans (effects_closeStep _ _)

theorem Part.effects_answered {p : Part} {handler : TxKind → Option (Part → Part)}
    (result : ∀ (p : Part) kind f, handler kind = some f → p.port.carries kind →
      p.Effects known k i (f p.endTransaction)) :
    p.Effects known k i (p.answered k handler) := by
  obtain ⟨used, h | ⟨-, h⟩⟩ := p.answered_cases k handler
  · rw [h]
    exact (Effect.chooses used).effects.trans (effects_ended fun kind f => result _ kind f)
  · rw [h]
    exact (Effect.chooses used).effects.tail (.withdraws _)

theorem Part.effects_stepRead_none (p : Part) (c : ChanId) :
    p.Effects known k i (p.endTransaction.stepRead k c none) := by
  obtain ⟨fault, hopen, hruns⟩ := (p.view c).runs_readReturns_none (x := p.context k c)
  exact Effect.ends.effects.tail (.returns c fault _ rfl hopen hruns)

theorem Part.atUnit_congr {p : Part} {c : ChanId} {f g : UnitContext → UnitView → UnitView}
    (h : f (p.context k c) (p.view c) = g (p.context k c) (p.view c)) : p.atUnit k c f = p.atUnit k c g := by
  simp only [Part.atUnit, h]

theorem Part.effects_stepRead_some {p : Part} {c : ChanId} (w : Slot) (r : StepRecord)
    (live : p.port.carries (.stepRead c)) :
    p.Effects known k (.stepReadReturn w) (p.endTransaction.stepRead k c (some r)) := by
  unfold Part.stepRead
  obtain ⟨-, h⟩ | ⟨hfresh, hsteps, ⟨hr, -⟩ | ⟨r', hr, h⟩⟩ :=
    (p.view c).readReturns_cases (p.context k c) (some r)
  · refine Effect.ends.effects.tail (.returns c false _ rfl nofun ?_)
    exact Relation.ReflTransGen.refl.trans (h ▸ Relation.ReflTransGen.refl)
  · cases hr
  · cases hr
    rw [atUnit_congr (p := p.endTransaction) (g := fun x u => ((u.fetched false).joined r).handOver x) h]
    exact (Effect.joins w rfl c r live hfresh hsteps).effects

/-! ### Entry writes -/

theorem Part.effects_sharedFreed (p : Part) : p.Effects known k i (p.sharedFreed k) := by
  unfold Part.sharedFreed
  split
  · exact .refl
  · exact (Effect.rotates _).effects.tail (.unit _ _ (UnitView.runs_offerAgain _))

theorem Part.effects_freeHead {p : Part} (q : RingId) (idle : p.port.current = none) :
    p.Effects known k .entryWriteDone (p.freeHead k q) := by
  unfold Part.freeHead
  split
  · exact .refl
  · have hdrop := (Effect.drops (known := known) (k := k) (p := p) q rfl idle).effects
    dsimp only
    split
    · exact hdrop.trans (effects_sharedFreed _)
    · exact hdrop.tail (.unit _ _ (UnitView.runs_offerAgain _))

theorem Part.effects_entryWhole {p : Part} (q : RingId) (idle : p.port.current = none) :
    p.Effects known k .entryWriteDone (p.entryWhole k q) := by
  unfold Part.entryWhole
  split
  · exact .refl
  · exact (Effect.notices _).effects.trans (effects_freeHead q idle)

theorem Part.effects_writeDone {p : Part} {q : RingId} {part : EntryPart}
    (live : p.port.carries (.entryWrite q part)) :
    p.Effects known k .entryWriteDone (p.endTransaction.writeDone k q part) := by
  have hwrite := fun half => (Effect.writes (known := known) (k := k) (i := .entryWriteDone) q part half live).effects
  cases part
  · exact (hwrite p.rings[q].advance.halfWritten).trans (effects_entryWhole q rfl)
  · exact hwrite true
  · exact (hwrite false).trans (effects_entryWhole q rfl)
  · exact hwrite p.rings[q].advance.halfWritten

theorem Part.atUnit_rings (p : Part) (c : ChanId) (f : UnitContext → UnitView → UnitView) :
    (p.atUnit k c f).rings = p.rings := by
  obtain ⟨u, -, h⟩ := p.atUnit_eq k c f
  obtain h2 | ⟨_, -, -, h2⟩ := (p.withView c u).hearHalt_cases c u.told <;> rw [h, h2] <;> simp

theorem Part.sharedFreed_rings (p : Part) : (p.sharedFreed k).rings = p.rings := by
  unfold Part.sharedFreed
  split
  · rfl
  · rw [atUnit_rings]

theorem Part.freeHead_rings (p : Part) (q : RingId) : (p.freeHead k q).rings = p.rings := by
  unfold Part.freeHead
  split
  · rfl
  · dsimp only
    split
    · rw [sharedFreed_rings]
    · rw [atUnit_rings]

theorem Part.entryWhole_rings (p : Part) (q : RingId) : (p.entryWhole k q).rings = p.rings := by
  unfold Part.entryWhole
  split
  · rfl
  · rw [freeHead_rings]
    rfl

/-- What the write of an entry of ring `q` leaves in its context: the advanced ring, half written or not (R114). -/
theorem Part.writeDone_ring (p : Part) (q : RingId) (part : EntryPart) :
    ∃ half, (p.writeDone k q part).rings[q] = { p.rings[q].advance with halfWritten := half } := by
  cases part
  · exact ⟨p.rings[q].advance.halfWritten, by simp [Part.writeDone, entryWhole_rings]⟩
  · exact ⟨true, by simp [Part.writeDone]⟩
  · exact ⟨false, by simp [Part.writeDone, entryWhole_rings]⟩
  · exact ⟨p.rings[q].advance.halfWritten, by simp [Part.writeDone]⟩

theorem Part.effects_restartIfWaiting {p : Part} {q : RingId} (present : known → p.rings[q].state ≠ .absent) :
    p.Effects known k i (p.restartIfWaiting q) := by
  unfold Part.restartIfWaiting
  split
  next h => exact (Effect.restarts q h.1 present).effects
  · exact .refl

end

end Sys2Proof.Machine
end

section
/-! PROOF. The effects of every command: each admin command's checks lead to one of its effects, and each row of the table
is a sequence of effects. -/

namespace Sys2Proof.Machine

/-! ### Admin commands -/

section
variable {k : Clock} {i : Instr}

theorem Part.refuse_effect (p : Part) (status : AdminStatus) : p.CommandEffect k i (p.refuse status) :=
  .completes status Results.zero

theorem Part.cqCreate_effect (p : Part) (r : CommandRecord) : p.CommandEffect k i (p.cqCreate r) := by
  unfold Part.cqCreate
  split
  · exact p.refuse_effect _
  next q _ =>
    split_ifs with h1 h2 h3 h4
    · exact p.refuse_effect _
    · exact p.refuse_effect _
    · exact p.refuse_effect _
    · exact p.refuse_effect _
    · exact .createsRing q _ _ _ _ (by simpa using h4) (by simpa using h1)

theorem Part.cqDelete_effect (p : Part) (r : CommandRecord) : p.CommandEffect k i (p.cqDelete r) := by
  unfold Part.cqDelete
  split
  · exact p.refuse_effect _
  next q _ =>
    split
    · exact p.refuse_effect _
    · exact .deletesRing q _ _

theorem Part.cqReset_effect (p : Part) (r : CommandRecord) : p.CommandEffect k i (p.cqReset r) := by
  unfold Part.cqReset
  split
  · exact p.refuse_effect _
  next q _ =>
    split_ifs with h1 h2 h3
    · exact p.refuse_effect _
    · exact p.refuse_effect _
    · exact .waitsOnRing q
    · exact .restartsRing q h2

theorem Part.cqNotice_effect (p : Part) (r : CommandRecord) : p.CommandEffect k i (p.cqNotice r) := by
  unfold Part.cqNotice
  split
  · exact p.refuse_effect _
  next j _ =>
    split_ifs
    · exact p.refuse_effect _
    · exact p.refuse_effect _
    · exact .setsNotice j _ _

theorem Part.chOpen_effect (p : Part) (r : CommandRecord) : p.CommandEffect k i (p.chOpen r) := by
  unfold Part.chOpen
  split
  next c cls q _ _ _ =>
    by_cases h1 : legalSize 4 1024 (r.half 10) = true
    swap; · simp only [h1]; exact p.refuse_effect _
    by_cases h2 : legalBase (r.word 12) (r.half 10) = true
    swap; · simp only [h1, h2]; exact p.refuse_effect _
    by_cases h3 : r.half 10 ≤ r.half 16
    · simp only [h1, h2, h3]; exact p.refuse_effect _
    simp only [h1, h2, h3, Bool.not_true, Bool.false_eq_true, if_false]
    split
    · exact p.refuse_effect _
    next b a hclaims =>
      split_ifs with h4 h5 h6 h7
      · exact p.refuse_effect _
      · exact p.refuse_effect _
      · exact p.refuse_effect _
      · exact p.refuse_effect _
      · refine .opens c cls b a q r _ h1 (by omega) hclaims (by simpa using h4) fun hcls => ?_
        simpa [hcls] using h7
  · exact p.refuse_effect _

theorem Part.chHalt_effect (p : Part) (r : CommandRecord) : p.CommandEffect k i (p.chHalt k r) := by
  unfold Part.chHalt
  split
  · split
    · exact p.refuse_effect _
    · exact p.refuse_effect _
    · exact .completes _ _
    all_goals exact .passesHalt _ _ _ _
  · exact p.refuse_effect _

theorem Part.chClose_effect (p : Part) (r : CommandRecord) : p.CommandEffect k i (p.chClose k r) := by
  unfold Part.chClose
  split
  · split
    · exact p.refuse_effect _
    · exact p.refuse_effect _
    next hstopped => exact .closesStopped _ _ _ hstopped
    all_goals exact .passesHalt _ _ _ _
  · exact p.refuse_effect _

theorem Part.chResume_effect (p : Part) (r : CommandRecord) : p.CommandEffect k i (p.chResume r) := by
  unfold Part.chResume
  split
  · exact p.refuse_effect _
  next c _ =>
    dsimp only
    split_ifs with h1 h2 h3
    · exact p.refuse_effect _
    · exact p.refuse_effect _
    · exact p.refuse_effect _
    · exact .resumes c _ _ (by simpa using h1) (by omega)

theorem Part.chRead_effect (p : Part) (r : CommandRecord) : p.CommandEffect k i (p.chRead r) := by
  unfold Part.chRead
  split
  · exact p.refuse_effect _
  · exact .completes _ _

/-- A pair's channels are its even and its odd one (R93). -/
theorem pairOf_eq_some {r : CommandRecord} {j : Fin 4} {even odd : ChanId} (h : pairOf r = some (j, even, odd)) :
    even = evenOf j ∧ odd = oddOf j ∧ r.byte 4 = 2 * j.val := by
  unfold pairOf at h
  split at h <;> cases h <;> refine ⟨rfl, rfl, by assumption⟩

theorem Part.pairJoin_effect (p : Part) (r : CommandRecord) :
    p.CommandEffect k (.pairJoin r) (p.pairJoin r) := by
  unfold Part.pairJoin
  split
  · exact p.refuse_effect _
  next j even odd hpair =>
    obtain ⟨rfl, rfl, -⟩ := pairOf_eq_some hpair
    split
    next h =>
      simp only [Bool.and_eq_true, beq_iff_eq] at h
      exact .joins r rfl j _ h.1.1 h.1.2
    · exact p.refuse_effect _

theorem Part.pairSplit_effect (p : Part) (r : CommandRecord) :
    p.CommandEffect k (.pairSplit r) (p.pairSplit r) := by
  unfold Part.pairSplit
  split
  · exact p.refuse_effect _
  next j even odd hpair =>
    obtain ⟨rfl, rfl, -⟩ := pairOf_eq_some hpair
    split
    next h =>
      simp only [Bool.and_eq_true] at h
      exact .splits r rfl j _ h.1 h.2
    · exact p.refuse_effect _

theorem Part.posSet_effect (p : Part) (r : CommandRecord) : p.CommandEffect k i (p.posSet r) := by
  unfold Part.posSet
  split
  · exact p.refuse_effect _
  next c _ =>
    dsimp only
    split_ifs with h1 h2
    · exact p.refuse_effect _
    · exact p.refuse_effect _
    · rw [not_or, not_or] at h1
      exact .setsPosition c _ _ h1.1 h1.2.1

theorem Part.linePark_effect (p : Part) (r : CommandRecord) :
    p.CommandEffect k (.linePark r) (p.linePark r) := by
  unfold Part.linePark
  split
  · exact .parks r rfl _ _ _
  · exact p.refuse_effect _

/-- The answer of an admin read that brings a command, where the command's own effect is known (R135, R172). -/
theorem Part.effects_command {known : Prop} {p : Part} {n : Nat} {r : CommandRecord} {body : Part → Part}
    (effect : ∀ q, Part.CommandEffect k i q (body q)) : p.Effects known k i (p.command k n r body) := by
  refine effects_answered fun p1 kind f hf live => ?_
  cases kind <;> cases hf
  refine (Effect.commands (BitVec.ofNat 8 n) r _ live ?_).effects
  split
  · exact effect _
  · exact Part.refuse_effect _ _

end

/-! ### The rows of the table -/

section
variable {known : Prop} {k : Clock}

/-- Where it is `known`, the ring of a live entry write is not ABSENT (R118). -/
abbrev Part.WritesPresent (known : Prop) (p : Part) : Prop :=
  known → ∀ q part, p.port.carries (.entryWrite q part) → p.rings[q].state ≠ .absent

theorem Part.writeFailed_ring (p : Part) (q : RingId) : (p.writeFailed q).rings[q].state = .faulted := by
  simp [Part.writeFailed]

theorem Part.effects_failed {i : Instr} {p : Part} {kind : TxKind} (live : p.port.carries kind) :
    p.Effects known k i (p.endTransaction.failed k kind) := by
  cases kind with
  | stepRead c => exact effects_stepRead_none p c
  | entryWrite q part =>
    exact (Effect.writeFails q part live).effects.trans (effects_restartIfWaiting fun _ => by
      rw [writeFailed_ring]
      decide)
  | acqWrite => exact (Effect.faults .acqWrite _ live (.inl rfl)).effects
  | adminRead => exact (Effect.faults .adminRead _ live (.inr (.inl rfl))).effects
  | configRead => exact (Effect.faults .configRead _ live (.inr (.inr rfl))).effects

theorem Part.effects_limitExpiry {i : Instr} (p : Part) : p.Effects known k i (p.limitExpiry k) := by
  unfold Part.limitExpiry
  split
  · refine (Effect.withdraws _).effects.trans (effects_ended fun kind f hf live => ?_)
    cases hf
    exact effects_failed live
  · exact .refl

theorem Part.effects_discardedEnd {i : Instr} (p : Part) : p.Effects known k i (p.discardedEnd k) := by
  unfold Part.discardedEnd
  split
  · refine effects_ended fun kind f hf live => ?_
    cases hf
    exact Effect.ends.effects
  · exact .refl

/-- The success of an entry write, with the CQ_RESET that waits for it (R114, R122). -/
theorem Part.effects_entryWritten {p : Part} {q : RingId} {part : EntryPart}
    (live : p.port.carries (.entryWrite q part)) (present : known → p.rings[q].state ≠ .absent) :
    p.Effects known k .entryWriteDone ((p.endTransaction.writeDone k q part).restartIfWaiting q) := by
  refine (effects_writeDone live).trans (effects_restartIfWaiting fun h => ?_)
  obtain ⟨half, hring⟩ := p.endTransaction.writeDone_ring (k := k) q part
  rw [hring]
  exact present h

/-- An answer to an entry write, where it is known that the ring of a live write is not ABSENT. -/
theorem Part.effects_answered_known {i : Instr} {p : Part} {handler : TxKind → Option (Part → Part)}
    (hp : p.WritesPresent known)
    (result : ∀ (p : Part) kind f, p.WritesPresent known → handler kind = some f → p.port.carries kind →
      p.Effects known k i (f p.endTransaction)) :
    p.Effects known k i (p.answered k handler) := by
  obtain ⟨used, h | ⟨-, h⟩⟩ := p.answered_cases k handler
  · rw [h]
    refine (Effect.chooses used).effects.trans (effects_ended fun kind f hf live => ?_)
    exact result _ kind f (by simpa only [Part.WritesPresent, noteChoice_port, noteChoice_rings] using hp) hf live
  · rw [h]
    exact (Effect.chooses used).effects.tail (.withdraws _)

theorem Part.effects_postInvalid {i : Instr} (p : Part) (id : BitVec 4) : p.Effects known k i (p.postInvalid id) := by
  unfold Part.postInvalid
  split
  · exact .refl
  · exact (Effect.registers { p.device with postError := true, latchedId := id } rfl (.inr rfl)).effects

theorem Part.effects_enable {i : Instr} (p : Part) : p.Effects known k i (p.enable k) := by
  unfold Part.enable
  split
  next h => exact (Effect.enables h).effects.trans (effects_closeStep _ _)
  · exact .refl

theorem Part.effects_restartAdmin {i : Instr} (p : Part) (waiting : List Instr) :
    p.Effects known k i (p.restartAdmin k waiting) := by
  unfold Part.restartAdmin
  split
  next h => exact (Effect.restartsAdmin waiting _ h).effects.trans (effects_closeStep _ _)
  · exact .refl

theorem Part.effects_postStepTail {i : Instr} (p : Part) (c : ChanId) (index : Nat) :
    p.Effects known k i (p.postStepTail k c index) := by
  unfold Part.postStepTail
  split
  next h => exact (Effect.postsTail c index h).effects.trans (effects_closeStep _ _)
  · exact p.effects_postInvalid _

theorem Part.effects_postCqHead {i : Instr} (p : Part) (q : RingId) (index : Nat) :
    p.Effects known k i (p.postCqHead k q index) := by
  unfold Part.postCqHead
  split
  next h => exact (Effect.postsHead q index h).effects.trans (effects_closeStep _ _)
  · exact p.effects_postInvalid _

theorem Part.effects_postAdminTail {i : Instr} (p : Part) (index : Nat) :
    p.Effects known k i (p.postAdminTail k index) := by
  unfold Part.postAdminTail
  split
  · exact (Effect.postsAdminTail index).effects.trans (effects_closeStep _ _)
  · exact p.effects_postInvalid _

theorem Part.effects_postAcqHead {i : Instr} (p : Part) (index : Nat) :
    p.Effects known k i (p.postAcqHead k index) := by
  unfold Part.postAcqHead
  split
  next h =>
    exact (Effect.postsAcqHead index (Bool.and_eq_true_iff.1 h).2).effects.trans (effects_closeStep _ _)
  · exact p.effects_postInvalid _

theorem Part.effects_fire {i : Instr} (p : Part) (e : TimedEvent) : p.Effects known k i (p.fire k e) := by
  cases e with
  | captureEdge c => exact p.effects_captureEdge c
  | windowEdge c => exact p.effects_windowEdge c
  | countStep c => exact p.effects_countStep c
  | cycleEnd c => exact p.effects_cycleEnd c
  | overrange c => exact p.effects_overrange c
  | windowEnd c => exact p.effects_windowEnd c
  | atTime c => exact p.effects_atTimeSatisfied c
  | markTimeout c => exact p.effects_markTimeout c
  | notice j => exact p.effects_noticeExpiry j
  | deadline => exact p.effects_deadlineExpiry
  | responseLimit => exact p.effects_limitExpiry

theorem Part.effects_takeDue {i : Instr} (p : Part) (fuel : Nat) :
    p.Effects known k i (Part.takeDue k fuel p) :=
  takeDue_keeps (P := fun q => p.Effects known k i q) (fun _ used h => h.tail (.chooses used))
    (fun q e h => h.trans (q.effects_fire e)) fuel p .refl

end

/-- The resets and TICK change the part at once; every other command is a sequence of effects. -/
abbrev MovesByEffects (i : Instr) : Prop :=
  (∀ pins, i ≠ .hardReset pins) ∧ i ≠ .reset ∧ ∀ pins, i ≠ .tick pins

theorem Device.clearPostError_state (d : Device) (v : Word32) : (d.clearPostError v).state = d.state := by
  unfold Device.clearPostError
  split <;> rfl

theorem Device.clearPostError_cfgBase (d : Device) (v : Word32) : (d.clearPostError v).cfgBase = d.cfgBase := by
  unfold Device.clearPostError
  split <;> rfl

/-- Every command but the resets and TICK is a sequence of effects on the part. -/
theorem exec_effects {known : Prop} {s t : State} {i : Instr} (h : exec i s = .next t) (hi : MovesByEffects i)
    (hs : s.part.WritesPresent known) : s.part.Effects known s.clock i t.part := by
  cases i with
  | hardReset pins => exact absurd rfl (hi.1 pins)
  | reset => exact absurd rfl hi.2.1
  | tick pins => exact absurd rfl (hi.2.2 pins)
  | tbloRead => cases h; exact .refl
  | ignoredRegisterWrite register value => rw [eq_of_execIgnoredRegisterWrite h]
  | enable => cases h; exact s.part.effects_enable
  | restartAdmin => cases h; exact s.part.effects_restartAdmin _
  | devstatWrite value =>
    cases h
    exact (Part.Effect.registers _ (Device.clearPostError_state ..)
      (.inr (Device.clearPostError_cfgBase ..))).effects
  | cfgbaseWrite value =>
    cases h
    exact (Part.Effect.registers { s.part.device with cfgBase := value.extractLsb' 6 26 ++ (0 : BitVec 6) }
      rfl (.inl ⟨value, rfl⟩)).effects
  | intstatWrite value => cases h; exact (Part.Effect.notices _).effects
  | postStepTail c index => cases h; exact s.part.effects_postStepTail c _
  | postCqHead q index => cases h; exact s.part.effects_postCqHead q _
  | postAdminTail index => cases h; exact s.part.effects_postAdminTail _
  | postAcqHead index => cases h; exact s.part.effects_postAcqHead _
  | postRingId1415 id15 index => cases h; exact s.part.effects_postInvalid _
  | nop r => cases h; exact Part.effects_command fun _ => .completes _ _
  | cqCreate r => cases h; exact Part.effects_command fun q => q.cqCreate_effect r
  | cqDelete r => cases h; exact Part.effects_command fun q => q.cqDelete_effect r
  | cqReset r => cases h; exact Part.effects_command fun q => q.cqReset_effect r
  | cqNotice r => cases h; exact Part.effects_command fun q => q.cqNotice_effect r
  | chOpen r => cases h; exact Part.effects_command fun q => q.chOpen_effect r
  | chHalt r => cases h; exact Part.effects_command fun q => q.chHalt_effect r
  | chClose r => cases h; exact Part.effects_command fun q => q.chClose_effect r
  | chResume r => cases h; exact Part.effects_command fun q => q.chResume_effect r
  | chRead r => cases h; exact Part.effects_command fun q => q.chRead_effect r
  | pairJoin r => cases h; exact Part.effects_command fun q => q.pairJoin_effect r
  | pairSplit r => cases h; exact Part.effects_command fun q => q.pairSplit_effect r
  | posSet r => cases h; exact Part.effects_command fun q => q.posSet_effect r
  | linePark r => cases h; exact Part.effects_command fun q => q.linePark_effect r
  | badOpcode opcode r =>
    change execBadOpcode opcode r s = .next t at h
    unfold execBadOpcode at h
    split at h <;> cases h
    refine Part.effects_answered fun p kind f hf live => ?_
    cases kind <;> cases hf
    exact (Part.Effect.commands _ _ _ live (Part.refuse_effect _ _)).effects
  | stepReadReturn w =>
    cases h
    refine Part.effects_answered fun p kind f hf live => ?_
    cases kind <;> cases hf
    exact Part.effects_stepRead_some w _ live
  | entryWriteDone =>
    cases h
    refine Part.effects_answered_known hs fun p kind f hp hf live => ?_
    cases kind <;> cases hf
    exact Part.effects_entryWritten live fun h => hp h _ _ live
  | acqWriteDone =>
    cases h
    refine Part.effects_answered fun p kind f hf live => ?_
    cases kind <;> cases hf
    exact (Part.Effect.acqDone live).effects
  | configReadReturn block =>
    cases h
    refine Part.effects_answered fun p kind f hf live => ?_
    cases kind <;> cases hf
    exact (Part.Effect.configures _ live).effects
  | stepReadError | entryWriteError | acqWriteError | adminReadError | configReadError =>
    cases h
    refine Part.effects_answered fun p kind f hf live => ?_
    cases kind <;> cases hf
    exact Part.effects_failed live
  | discardedTransactionEnd => cases h; exact s.part.effects_discardedEnd
  | responseLimitExpiry => cases h; exact s.part.effects_limitExpiry
  | noticeTimerExpiry j => cases h; exact s.part.effects_noticeExpiry j
  | deadlineExpiry => cases h; exact s.part.effects_deadlineExpiry
  | atTimeSatisfied c => cases h; exact s.part.effects_atTimeSatisfied c
  | markTimeout c => cases h; exact s.part.effects_markTimeout c
  | cycleEnd c => cases h; exact s.part.effects_cycleEnd c
  | overrange c => cases h; exact s.part.effects_overrange c
  | windowEnd c => cases h; exact s.part.effects_windowEnd c
  | captureEdge c => cases h; exact s.part.effects_captureEdge c
  | windowEdge c => cases h; exact s.part.effects_windowEdge c
  | countStep c => cases h; exact s.part.effects_countStep c

/-- The resets, as they leave the part (R164). -/
theorem exec_reset_part {s t : State} (h : exec .reset s = .next t) :
    t.part = s.part.afterReset s.part.device.cfgBase := by
  cases h
  rfl

theorem exec_hardReset_part {s t : State} {pins : BitVec 16} (h : exec (.hardReset pins) s = .next t) :
    t.part = { s.part.afterReset 0 with port := s.part.port.afterHardReset s.tb } := by
  cases h
  rfl

theorem exec_tick_part {s t : State} {pins : BitVec 16} (h : exec (.tick pins) s = .next t) :
    t.part = (Part.takeDue s.clock dueLimit s.part).endTick s.clock := by
  cases h
  rfl

/-- A law of the part is kept by every command where it is kept by every effect, by the resets, and by the end of a tick
whose due events have been taken. -/
theorem exec_keeps {P : Part → Prop} {known : Prop}
    (effect : ∀ k i p q, Part.Effect known k i p q → P p → P q)
    (reset : ∀ (p : Part) (cfgBase : Word32) (port : Port), P p → port.discard = port.current.isSome →
      P { p.afterReset cfgBase with port := port })
    (tick : ∀ p k, P p → P (p.endTick k)) (present : ∀ p, P p → p.WritesPresent known)
    {s t : State} {i : Instr} (hs : P s.part) (h : exec i s = .next t) : P t.part := by
  by_cases hi : MovesByEffects i
  · exact (exec_effects h hi (present _ hs)).keeps (effect s.clock i) hs
  · rw [not_and_or, not_and_or] at hi
    push Not at hi
    obtain ⟨pins, rfl⟩ | rfl | ⟨pins, rfl⟩ := hi
    · rw [exec_hardReset_part h]
      exact reset _ _ _ hs (by cases hc : s.part.port.current <;> simp [Port.afterHardReset, Port.afterReset, hc])
    · rw [exec_reset_part h]
      exact reset _ _ s.part.port.afterReset hs rfl
    · rw [exec_tick_part h]
      exact tick _ _ ((s.part.effects_takeDue dueLimit).keeps (effect s.clock (.tick pins)) hs)

end Sys2Proof.Machine
end

section
/-! PROOF. The staging law (R12, R105): what an admission does to the counts of occupied slots, and that every act of a
unit and every effect of a command keeps the pool within its slots. -/

namespace Sys2Proof.Machine

/-! ### The counts of the pool -/

theorem Pool.append_lists (p : Pool) (q : RingId) (st : Staged) (d : RingId) :
    (p.append q st).lists[d] = if q = d then p.lists[d] ++ [st] else p.lists[d] := by
  unfold Pool.append
  by_cases h : q = d
  · subst h
    simp
  · have : q.val ≠ d.val := fun hv => h (Fin.ext hv)
    simp [h, this]

theorem Pool.sharedUsed_append (p : Pool) (q : RingId) (st : Staged) :
    (p.append q st).sharedUsed = p.sharedUsed + if st.slot = .shared then 1 else 0 := by
  have hone : sharedIn [st] = if st.slot = .shared then 1 else 0 := by simp [sharedIn, List.countP_cons]
  rw [← hone]
  simp only [Pool.sharedUsed, Pool.append, sharedIn]
  match q with
  | 0 | 1 | 2 | 3 => simp [List.countP_append]; omega

theorem Pool.reservedUsed_append (p : Pool) (q : RingId) (st : Staged) (c : ChanId) :
    (p.append q st).reservedUsed c = p.reservedUsed c + if st.isReservedOf c then 1 else 0 := by
  have hone : reservedIn c [st] = if st.isReservedOf c then 1 else 0 := by simp [reservedIn, List.countP_cons]
  rw [← hone]
  simp only [Pool.reservedUsed, Pool.append, reservedIn]
  match q with
  | 0 | 1 | 2 | 3 => simp [List.countP_append]; omega

theorem Pool.reservedBusy_eq_false_iff {p : Pool} {c : ChanId} : p.reservedBusy c = false ↔ p.reservedUsed c = 0 := by
  have hany : ∀ l : List Staged, l.any (Staged.isReservedOf c) = false ↔ reservedIn c l = 0 := by
    intro l
    simp [reservedIn, List.countP_eq_zero]
  simp only [Pool.reservedBusy, Bool.or_eq_false_iff, hany, Pool.reservedUsed]
  omega

theorem Pool.reservedBusy_append (p : Pool) (q : RingId) (st : Staged) (c : ChanId) :
    (p.append q st).reservedBusy c = (p.reservedBusy c || st.isReservedOf c) := by
  rw [Bool.eq_iff_iff, ← not_iff_not]
  simp only [Bool.not_eq_true, Bool.or_eq_false_iff, Pool.reservedBusy_eq_false_iff, Pool.reservedUsed_append]
  cases st.isReservedOf c <;> simp

theorem Staged.isReservedOf_iff {st : Staged} {c : ChanId} :
    st.isReservedOf c = true ↔ st.slot = .reserved ∧ st.entry.draft.channel = c := by
  simp [Staged.isReservedOf]

theorem Pool.hasShared_iff {p : Pool} : p.hasShared = true ↔ p.sharedUsed < 24 := by simp [Pool.hasShared]

/-! ### The law at a unit -/

/-- The staging law as channel unit `x` sees it in the midst of an event: `others` says whose reserved slots are occupied
besides its own, which it does not change. -/
structure UnitView.StagingLaw (x : UnitContext) (others : ChanId → Bool) (u : UnitView) : Prop where
  shared : u.pool.sharedUsed ≤ 24
  reserved : ∀ c, u.pool.reservedUsed c ≤ 1
  final : ∀ q : RingId, ∀ st ∈ u.pool.lists[q], st.slot = .reserved → st.entry.draft.body.isFinal = true
  own : u.ch.active.isSome = true → u.pool.reservedBusy x.id = false
  others : ∀ c, c ≠ x.id → u.pool.reservedBusy c = others c
  pending : ∀ d ∈ u.ch.pendingReport, d.channel = x.id ∧ d.body.mayPend = true

namespace UnitView.StagingLaw
variable {x : UnitContext} {others : ChanId → Bool} {u v : UnitView}

/-- The law reads of the channel its active step and its pending report alone. -/
theorem congr (h : u.StagingLaw x others) (hpool : v.pool = u.pool)
    (hactive : v.ch.active.isSome = true → u.ch.active.isSome = true)
    (hpending : v.ch.pendingReport = u.ch.pendingReport) : v.StagingLaw x others where
  shared := by rw [hpool]; exact h.shared
  reserved := by rw [hpool]; exact h.reserved
  final := by rw [hpool]; exact h.final
  own := fun ha => by rw [hpool]; exact h.own (hactive ha)
  others := by rw [hpool]; exact h.others
  pending := by rw [hpending]; exact h.pending

/-- The admission of an entry of the unit's channel into a free slot. -/
theorem admitted (h : u.StagingLaw x others) {slot : SlotKind} {d : Draft} (hd : d.channel = x.id)
    (hshared : slot = .shared → u.pool.hasShared = true)
    (hreserved : slot = .reserved → u.pool.reservedBusy x.id = false ∧ d.body.isFinal = true ∧ u.ch.active = none) :
    (u.admitted slot d).StagingLaw x others := by
  obtain ⟨-, heq⟩ | ⟨q, -, heq⟩ := u.admitted_cases slot d
  · rw [heq]
    exact h
  rw [heq]
  constructor
  case shared =>
    rw [Pool.sharedUsed_append]
    have := h.shared
    split
    next hs => have := Pool.hasShared_iff.1 (hshared hs); omega
    · omega
  case reserved =>
    intro c
    rw [Pool.reservedUsed_append]
    split
    next hr =>
      obtain ⟨hslot, hc⟩ := Staged.isReservedOf_iff.1 hr
      have := Pool.reservedBusy_eq_false_iff.1 (hreserved hslot).1
      rw [← hc, hd]
      omega
    · exact h.reserved c
  case final =>
    intro q' st hst
    rw [Pool.append_lists] at hst
    split at hst
    · obtain hst | hst := List.mem_append.1 hst
      · exact h.final q' st hst
      · rw [List.mem_singleton.1 hst]
        exact fun hslot => (hreserved hslot).2.1
    · exact h.final q' st hst
  case own =>
    intro ha
    rw [Pool.reservedBusy_append, h.own ha, Bool.false_or, Bool.eq_false_iff]
    intro hr
    obtain ⟨hslot, -⟩ := Staged.isReservedOf_iff.1 hr
    simp [Channel.afterAdmission, (hreserved hslot).2.2] at ha
  case others =>
    intro c hc
    rw [Pool.reservedBusy_append, ← h.others c hc]
    rw [Bool.or_eq_left_iff_imp]
    intro hr
    exact absurd ((Staged.isReservedOf_iff.1 hr).2.symm.trans hd) hc
  case pending => exact h.pending

theorem offerCapture (h : u.StagingLaw x others) (body : EntryBody) : (u.offerCapture x body).StagingLaw x others := by
  unfold UnitView.offerCapture
  split
  next hs => exact h.admitted rfl (fun _ => hs) (fun hs => by cases hs)
  · exact h.congr rfl id rfl

/-- A slot that a final report takes: a shared one where one is free. -/
theorem slot_cases {p : Pool} {slot : SlotKind} (h : slot = if p.hasShared then .shared else .reserved) :
    (slot = .shared → p.hasShared = true) ∧ (slot = .reserved → p.hasShared = false) := by
  cases hs : p.hasShared <;> simp [h, hs]

theorem endActive (h : u.StagingLaw x others) (status : DoneStatus) (forced : Bool) :
    (u.endActive x status forced).StagingLaw x others := by
  unfold UnitView.endActive
  split
  · exact h
  next e he =>
    have hfree := h.own (by simp [he])
    refine StagingLaw.admitted ?_ rfl (slot_cases rfl).1 fun _ => ⟨hfree, rfl, rfl⟩
    exact h.congr rfl (fun ha => (Bool.false_ne_true ha).elim) rfl

theorem stage (h : u.StagingLaw x others) {d : Draft} (hd : d.channel = x.id) (hfinal : d.body.isFinal = true)
    (room : u.canStage x = true) : (u.stage d).StagingLaw x others := by
  refine h.admitted hd (slot_cases rfl).1 fun hslot => ?_
  have hnone := (slot_cases (p := u.pool) rfl).2 hslot
  simp only [UnitView.canStage, hnone, Bool.false_or, Bool.and_eq_true, Option.isNone_iff_eq_none,
    Bool.not_eq_true'] at room
  exact ⟨room.2, hfinal, room.1⟩

theorem isFinal_of_mayPend {b : EntryBody} (h : b.mayPend = true) : b.isFinal = true := by
  cases b <;> simp_all [EntryBody.mayPend, EntryBody.isFinal]

theorem compose (h : u.StagingLaw x others) {d : Draft} (hd : d.channel = x.id) (kind : d.body.mayPend = true) :
    (u.compose x d).StagingLaw x others := by
  unfold UnitView.compose
  split
  next room => exact h.stage hd (isFinal_of_mayPend kind) room
  · exact { h with pending := by simpa using ⟨hd, kind⟩ }

theorem start (h : u.StagingLaw x others) (e : Step) (late held : Bool) (free : u.pool.reservedBusy x.id = false) :
    (u.start e late held).StagingLaw x others :=
  { h with own := fun _ => free }

theorem beginStart (h : u.StagingLaw x others) (e : Step) : (u.beginStart x e).StagingLaw x others := by
  unfold UnitView.beginStart UnitView.beginAtTime
  dsimp only
  split_ifs <;> exact h.congr rfl id rfl

theorem act (hact : u.Act x v) (h : u.StagingLaw x others) : v.StagingLaw x others := by
  cases hact with
  | offers body running kind => exact h.offerCapture body
  | ends e counter phase status running free =>
    exact StagingLaw.endActive (u := { u with ch := u.ch.at counter phase }) (h.congr rfl id rfl) status false
  | halts hr counter phase forced asked =>
    have hended := StagingLaw.endActive (u := { u with ch := { u.ch.at counter phase with halt := some hr } })
      (h.congr rfl id rfl) .halted forced
    unfold UnitView.endHalted
    dsimp only
    unfold UnitView.stopNow
    dsimp only
    split <;> exact hended.congr rfl id rfl
  | composes d shut own kind => exact h.compose own kind
  | arms e rest steps head fresh =>
    unfold UnitView.arm
    split <;> exact h.congr rfl id rfl
  | removes e rest status value time steps head armed room =>
    exact StagingLaw.stage (u := { u with ch := { u.ch with queue := u.ch.queue.tail, armed := .none } })
      (h.congr rfl id rfl) rfl rfl room
  | begins e rest steps head armed idle fresh => exact h.beginStart e
  | starts e rest late held steps head armed idle free => exact h.start e late held free
  | reports d pending room =>
    obtain ⟨hd, hkind⟩ := h.pending d (by simp [pending])
    have hstaged := h.stage hd (isFinal_of_mayPend hkind) room
    exact { hstaged with pending := fun d hd => by cases hd }
  | tallies | zeroes | requests | flushes | stops | closes | stales | holds | wakes | timesOut =>
    exact h.congr rfl id rfl

theorem runs (hruns : u.Runs x v) (h : u.StagingLaw x others) : v.StagingLaw x others :=
  hruns.keeps (fun _ _ => act) h

end UnitView.StagingLaw

/-! ### The law of the part -/

theorem Part.StagingLaw.view {p : Part} (h : p.StagingLaw) (k : Clock) (c : ChanId) :
    (p.view c).StagingLaw (p.context k c) p.pool.reservedBusy where
  shared := h.1
  reserved := h.2.1
  final := h.2.2.1
  own := h.2.2.2.1 c
  others := fun _ _ => rfl
  pending := h.2.2.2.2 c

theorem Part.StagingLaw.withView {p : Part} {k : Clock} {c : ChanId} {u : UnitView} (h : p.StagingLaw)
    (hu : u.StagingLaw (p.context k c) p.pool.reservedBusy) : (p.withView c u).StagingLaw := by
  obtain ⟨-, -, -, hactive, hpending⟩ := h
  refine ⟨hu.shared, hu.reserved, hu.final, fun d => ?_, fun d => ?_⟩
  · rw [withView_chans, withView_pool]
    by_cases hd : c = d
    · subst hd
      simpa using hu.own
    · have hv : c.val ≠ d.val := fun hv => hd (Fin.ext hv)
      have := hu.others d (fun h => hd h.symm)
      simpa [hv, this] using hactive d
  · rw [withView_chans]
    by_cases hd : c = d
    · subst hd
      simpa using hu.pending
    · have hv : c.val ≠ d.val := fun hv => hd (Fin.ext hv)
      simpa [hv] using hpending d

/-- The law reads of the part its pool, and of each channel its active step and its pending report. -/
theorem Part.StagingLaw.congr {p q : Part} (h : p.StagingLaw) (hpool : q.pool.lists = p.pool.lists)
    (hchans : ∀ c : ChanId, (q.chans[c].active = p.chans[c].active ∨ q.chans[c].active = none)
      ∧ (q.chans[c].pendingReport = p.chans[c].pendingReport ∨ q.chans[c].pendingReport = none)) : q.StagingLaw := by
  obtain ⟨hshared, hreserved, hfinal, hactive, hpending⟩ := h
  have hbusy : ∀ c, q.pool.reservedBusy c = p.pool.reservedBusy c := fun c => by simp only [Pool.reservedBusy, hpool]
  refine ⟨?_, fun c => ?_, ?_, fun c ha => ?_, fun c d hd => ?_⟩
  · simpa only [Pool.sharedUsed, hpool] using hshared
  · simpa only [Pool.reservedUsed, hpool] using hreserved c
  · simpa only [hpool] using hfinal
  · rw [hbusy]
    obtain ⟨h | h, -⟩ := hchans c
    · exact hactive c (h ▸ ha)
    · rw [h] at ha
      cases ha
  · obtain ⟨-, h | h⟩ := hchans c
    · exact hpending c d (h ▸ hd)
    · rw [h] at hd
      cases hd

/-- A part with the same pool and the same channels. -/
theorem Part.StagingLaw.congr_of_eq {p q : Part} (h : p.StagingLaw) (hpool : q.pool = p.pool)
    (hchans : q.chans = p.chans) : q.StagingLaw :=
  h.congr (by rw [hpool]) fun c => by rw [hchans]; exact ⟨.inl rfl, .inl rfl⟩

/-- One channel context changes, keeping its active step and its pending report or losing them. -/
theorem Part.StagingLaw.set {p q : Part} {c : ChanId} {ch : Channel} (h : p.StagingLaw) (hpool : q.pool = p.pool)
    (hchans : q.chans = p.chans.set c ch) (hactive : ch.active = p.chans[c].active ∨ ch.active = none)
    (hpending : ch.pendingReport = p.chans[c].pendingReport ∨ ch.pendingReport = none) : q.StagingLaw := by
  refine h.congr (by rw [hpool]) fun d => ?_
  rw [hchans]
  by_cases hd : c = d
  · subst hd
    simpa using ⟨hactive, hpending⟩
  · have hv : c.val ≠ d.val := fun hv => hd (Fin.ext hv)
    simp [hv]

theorem Part.hearHalt_pool (p : Part) (c : ChanId) (told : Option HaltReport) : (p.hearHalt c told).pool = p.pool := by
  obtain h | ⟨_, -, -, h⟩ := p.hearHalt_cases c told <;> rw [h]
  simp

theorem Part.hearHalt_chans (p : Part) (c : ChanId) (told : Option HaltReport) :
    (p.hearHalt c told).chans = p.chans := by
  obtain h | ⟨_, -, -, h⟩ := p.hearHalt_cases c told <;> rw [h]
  simp

theorem Part.StagingLaw.atUnit {p : Part} {k : Clock} {c : ChanId} {f : UnitContext → UnitView → UnitView}
    (h : p.StagingLaw) (hf : (f (p.context k c) (p.view c)).StagingLaw (p.context k c) p.pool.reservedBusy) :
    (p.atUnit k c f).StagingLaw := by
  obtain ⟨u, rfl, heq⟩ := p.atUnit_eq k c f
  have hsettled : (f (p.context k c) (p.view c)).settle.StagingLaw (p.context k c) p.pool.reservedBusy :=
    hf.congr rfl id rfl
  rw [heq]
  exact (h.withView hsettled).congr_of_eq (hearHalt_pool ..) (hearHalt_chans ..)

theorem Part.StagingLaw.unit {p : Part} {k : Clock} {c : ChanId} {f : UnitContext → UnitView → UnitView}
    (h : p.StagingLaw) (runs : (p.view c).Runs (p.context k c) (f (p.context k c) (p.view c))) :
    (p.atUnit k c f).StagingLaw :=
  h.atUnit (UnitView.StagingLaw.runs runs (h.view k c))

theorem Part.StagingLaw.dropHead {p : Part} (h : p.StagingLaw) (q : RingId) :
    Part.StagingLaw { p with pool := p.pool.dropHead q } := by
  obtain ⟨hshared, hreserved, hfinal, hactive, hpending⟩ := h
  have hsublist : ∀ d : RingId, List.Sublist (p.pool.dropHead q).lists[d] p.pool.lists[d] := by
    intro d
    unfold Pool.dropHead
    by_cases hd : q = d
    · subst hd
      simpa using List.tail_sublist _
    · have hv : q.val ≠ d.val := fun hv => hd (Fin.ext hv)
      simp [hv]
  have hused : ∀ c, (p.pool.dropHead q).reservedUsed c ≤ p.pool.reservedUsed c := fun c => by
    have hle := fun d => (hsublist d).countP_le (p := Staged.isReservedOf c)
    exact Nat.add_le_add (Nat.add_le_add (Nat.add_le_add (hle 0) (hle 1)) (hle 2)) (hle 3)
  refine ⟨?_, fun c => (hused c).trans (hreserved c), fun d st hst => hfinal d st ((hsublist d).subset hst),
    fun c ha => ?_, hpending⟩
  · have hle := fun d => (hsublist d).countP_le (p := fun st => st.slot == .shared)
    exact (Nat.add_le_add (Nat.add_le_add (Nat.add_le_add (hle 0) (hle 1)) (hle 2)) (hle 3)).trans hshared
  · have := Pool.reservedBusy_eq_false_iff.1 (hactive c ha)
    exact Pool.reservedBusy_eq_false_iff.2 (Nat.le_zero.1 ((hused c).trans_eq this))

theorem Part.StagingLaw.command {p q : Part} {k : Clock} {i : Instr} (h : p.StagingLaw) (he : p.CommandEffect k i q) :
    q.StagingLaw := by
  cases he with
  | opens c cls b a r rec w legal inside claims closed free =>
    exact h.set (by simp [openChannel]) (Part.complete_chans ..) (.inr rfl) (.inr rfl)
  | passesHalt c close boundary deadline =>
    exact Part.StagingLaw.unit (p := p.waitOnChannel k c deadline) (h.congr_of_eq rfl rfl)
      (UnitView.runs_takeHalt ..)
  | closesStopped c boundary w stopped =>
    have hclosed : (p.atUnit k c fun x u => u.takeHalt x true boundary false).StagingLaw :=
      h.unit (UnitView.runs_takeHalt ..)
    exact hclosed.congr_of_eq (by simp) (by simp)
  | resumes c index w stopped inside =>
    exact h.set (by simp) (Part.complete_chans ..) (.inl rfl) (.inl rfl)
  | setsPosition c n w closed subordinate => exact h.set (by simp) (Part.complete_chans ..) (.inl rfl) (.inl rfl)
  | joins r command j w rest closed => exact h.set (by simp) (Part.complete_chans ..) (.inr rfl) (.inr rfl)
  | splits r command j w joined rest =>
    have hodd : Part.StagingLaw (p.setChan (oddOf j) (p.chans[oddOf j].blank .closed)) :=
      h.set (c := oddOf j) rfl rfl (.inr rfl) (.inr rfl)
    refine hodd.set (by simp) (Part.complete_chans ..) (.inl ?_) (.inl ?_)
    all_goals
      have hne : (oddOf j).val ≠ (evenOf j).val := by simp [oddOf, evenOf]
      simp [hne, Channel.narrowed]
  | restartsRing q present =>
    unfold Part.restart
    split
    · exact h
    · exact h.congr_of_eq (by simp) (by simp)
  | completes | createsRing | deletesRing | waitsOnRing | setsNotice | parks =>
    exact h.congr_of_eq (by simp) (by simp)

theorem Part.dropAdminTransaction_pool (p : Part) (k : Clock) (waiting : List Instr) :
    (p.dropAdminTransaction k waiting).pool = p.pool ∧ (p.dropAdminTransaction k waiting).chans = p.chans := by
  obtain ⟨-, h⟩ | ⟨-, -, _, h | ⟨-, h⟩⟩ := p.dropAdminTransaction_cases k waiting <;> rw [h] <;> exact ⟨rfl, rfl⟩

theorem Part.StagingLaw.effect {known : Prop} {p q : Part} {k : Clock} {i : Instr} (he : p.Effect known k i q)
    (h : p.StagingLaw) : q.StagingLaw := by
  cases he with
  | chooses used => exact h.congr_of_eq (by simp) (by simp)
  | grants =>
    refine h.congr (by simp) fun c => ?_
    obtain hc | ⟨-, hc⟩ := p.grant_chans k.tb c <;> rw [hc] <;> exact ⟨.inl rfl, .inl rfl⟩
  | unit c f runs => exact h.unit runs
  | returns c fault f idle open' runs =>
    exact h.atUnit (UnitView.StagingLaw.runs runs ((h.view k c).congr rfl id rfl))
  | joins w command c r live fresh steps =>
    refine Part.StagingLaw.atUnit (p := p.endTransaction) (h.congr_of_eq rfl rfl) ?_
    exact UnitView.StagingLaw.runs (UnitView.runs_handOver _)
      (UnitView.StagingLaw.congr (h.view k c) rfl id rfl)
  | drops r command idle => exact h.dropHead r
  | rotates c => exact h.congr rfl fun c => ⟨.inl rfl, .inl rfl⟩
  | restarts r waits present =>
    unfold Part.restart
    split
    · exact h
    · exact h.congr_of_eq (by simp) (by simp)
  | commands opcode r q live effect =>
    exact Part.StagingLaw.command (p := p.endTransaction.take opcode r) (h.congr_of_eq rfl rfl) effect
  | postsTail c index valid => exact h.set (c := c) rfl rfl (.inl rfl) (.inl rfl)
  | configures b live =>
    unfold Part.configured
    split <;> exact h.congr_of_eq rfl rfl
  | restartsAdmin waiting notices state =>
    obtain ⟨hpool, hchans⟩ := p.dropAdminTransaction_pool k waiting
    exact h.congr_of_eq hpool hchans
  | completes status w waits => exact h.congr_of_eq (by simp) (by simp)
  | withdraws | ends | writes | writeFails | notices | untimes | acqDone | faults | postsHead | postsAdminTail
    | postsAcqHead | registers | enables => exact h.congr_of_eq rfl rfl

theorem Part.reset_stagingLaw : Part.reset.StagingLaw := by
  refine ⟨by decide, by decide, fun q st hst => ?_, fun c h => ?_, fun c d hd => ?_⟩
  · simp [Part.reset] at hst
  · simp [Part.reset, Channel.reset] at h
  · simp [Part.reset, Channel.reset] at hd

theorem Channel.endTick_frame (ch : Channel) (k : Clock) :
    ∃ phase counter running, ch.endTick k = { ch with
      phase := phase, counter := counter, running := running, counted := false, edgeTaken := false } := by
  unfold Channel.endTick
  split
  · exact ⟨ch.phase, ch.counter, _, rfl⟩
  · dsimp only
    split
    · unfold Channel.passTick
      split
      · exact ⟨_, ch.counter, _, rfl⟩
      · exact ⟨_, _, _, rfl⟩
    · exact ⟨ch.phase, ch.counter, _, rfl⟩

theorem Part.endTick_chans (p : Part) (k : Clock) (c : ChanId) : (p.endTick k).chans[c] = p.chans[c].endTick k := by
  simp [Part.endTick, endTicks]

theorem Part.StagingLaw.endTick {p : Part} (h : p.StagingLaw) (k : Clock) : (p.endTick k).StagingLaw := by
  refine h.congr rfl fun c => ?_
  obtain ⟨_, _, _, hc⟩ := p.chans[c].endTick_frame k
  rw [endTick_chans, hc]
  exact ⟨.inl rfl, .inl rfl⟩

/-! ### The size of the pool -/

/-- The slots of a list are shared slots and reserved slots of the eight channels. -/
theorem length_eq_shared_add_reserved (l : List Staged) :
    l.length = sharedIn l + (allChans.map fun c => reservedIn c l).sum := by
  induction l with
  | nil => rfl
  | cons st l ih =>
    have hreserved : ∀ channel : ChanId, (if (SlotKind.reserved == SlotKind.shared) = true then 1 else 0)
        + ([0, 1, 2, 3, 4, 5, 6, 7].map fun c => if (SlotKind.reserved == SlotKind.reserved && channel == c) = true
            then 1 else 0).sum = 1 := by decide
    have hone : sharedIn [st] + (allChans.map fun c => reservedIn c [st]).sum = 1 := by
      obtain ⟨slot, ⟨⟨channel, time, body⟩, seq, missed⟩⟩ := st
      cases slot
      · simp [sharedIn, reservedIn, Staged.isReservedOf, allChans]
      · simp only [sharedIn, reservedIn, Staged.isReservedOf, allChans, List.countP_singleton]
        exact hreserved channel
    have hcons : ∀ f : Staged → Bool, (st :: l).countP f = [st].countP f + l.countP f := fun f => by
      rw [← List.countP_append]
      rfl
    simp only [sharedIn, reservedIn, allChans, List.map_cons, List.map_nil, List.sum_cons, List.sum_nil,
      List.length_cons, hcons] at hone ih ⊢
    omega

/-- R105: with 24 shared slots and eight reserved ones the pool holds at most 32 entries. -/
theorem Part.StagingLaw.size_le {p : Part} (h : p.StagingLaw) : p.pool.size ≤ 32 := by
  obtain ⟨hshared, hreserved, -⟩ := h
  have h0 := length_eq_shared_add_reserved p.pool.lists[0]
  have h1 := length_eq_shared_add_reserved p.pool.lists[1]
  have h2 := length_eq_shared_add_reserved p.pool.lists[2]
  have h3 := length_eq_shared_add_reserved p.pool.lists[3]
  have hc0 := hreserved 0; have hc1 := hreserved 1; have hc2 := hreserved 2; have hc3 := hreserved 3
  have hc4 := hreserved 4; have hc5 := hreserved 5; have hc6 := hreserved 6; have hc7 := hreserved 7
  simp only [allChans, List.map_cons, List.map_nil, List.sum_cons, List.sum_nil] at h0 h1 h2 h3
  simp only [Pool.reservedUsed] at hc0 hc1 hc2 hc3 hc4 hc5 hc6 hc7
  simp only [Pool.sharedUsed] at hshared
  simp only [Pool.size]
  omega

/-- Settles O57: the law is kept by every act of a unit and so by every effect of a command, by the resets, which empty
the pool, and by the end of a tick, which leaves it; the size is counted slot kind by slot kind. -/
theorem everyCommandKeepsTheStagingLaw : Obligations.EveryCommandKeepsTheStagingLaw := by
  refine ⟨fun s t i hs h => ?_, fun p h => h.size_le⟩
  refine exec_keeps (P := Part.StagingLaw) (known := False) (fun _ _ _ _ => Part.StagingLaw.effect)
    (fun p cfgBase port _ _ => Part.reset_stagingLaw.congr_of_eq rfl rfl) (fun p k h => h.endTick k)
    (fun _ _ h => h.elim) hs h

end Sys2Proof.Machine
end

section
/-! PROOF. The laws of the completion rings, of the ACQ and of the admin unit (R112, R138, R141): the arithmetic of ring
indices, what each effect leaves of the blocks that it does not move, and that every effect keeps the laws. -/

namespace Sys2Proof.Machine

/-! ### Ring indices -/

theorem forward_eq {a b n : Nat} (ha : a < n) (hb : b < n) :
    forward a b n = if a ≤ b then b - a else b + n - a := by
  unfold forward
  split
  · rw [show b + n - a = (b - a) + n by omega, Nat.add_mod_right, Nat.mod_eq_of_lt (by omega)]
  · rw [Nat.mod_eq_of_lt (by omega)]

theorem forward_zero_zero (n : Nat) : forward 0 0 n = 0 := by simp [forward]

theorem bump_lt {i n : Nat} (h : i < n) : bump i n < n := by
  unfold bump
  split <;> omega

/-- One more slot written, where one is free (R112, R114). -/
theorem forward_bump {a b n : Nat} (ha : a < n) (hb : b < n) (room : forward a b n + 1 < n) :
    forward a (bump b n) n = forward a b n + 1 := by
  rw [forward_eq ha hb] at room ⊢
  rw [forward_eq ha (bump_lt hb)]
  unfold bump
  split_ifs at room ⊢ <;> omega

/-- Slots returned up to `c`, no more of them than stand between `a` and `b` (R113). -/
theorem forward_sub {a b c n : Nat} (ha : a < n) (hb : b < n) (hc : c < n) (h : forward a c n ≤ forward a b n) :
    forward c b n = forward a b n - forward a c n := by
  rw [forward_eq ha hb, forward_eq ha hc] at h ⊢
  rw [forward_eq hc hb]
  split_ifs at h ⊢ <;> omega

/-! ### What an event at a unit leaves -/

section
variable (p : Part) (k : Clock) (c : ChanId) (f : UnitContext → UnitView → UnitView)

@[simp] theorem Part.hearHalt_frame (told : Option HaltReport) :
    (p.hearHalt c told).lines = p.lines ∧ (p.hearHalt c told).pairs = p.pairs ∧ (p.hearHalt c told).notices = p.notices
      ∧ (p.hearHalt c told).port = p.port ∧ (p.hearHalt c told).device = p.device
      ∧ (p.hearHalt c told).marks = p.marks ∧ (p.hearHalt c told).choices = p.choices := by
  obtain h | ⟨_, -, -, h⟩ := p.hearHalt_cases c told <;> rw [h] <;> simp

@[simp] theorem Part.atUnit_port : (p.atUnit k c f).port = p.port := by simp [Part.atUnit]

@[simp] theorem Part.atUnit_device : (p.atUnit k c f).device = p.device := by simp [Part.atUnit]

@[simp] theorem Part.atUnit_pairs : (p.atUnit k c f).pairs = p.pairs := by simp [Part.atUnit]

@[simp] theorem Part.atUnit_notices : (p.atUnit k c f).notices = p.notices := by simp [Part.atUnit]

@[simp] theorem Part.atUnit_pool : (p.atUnit k c f).pool = (f (p.context k c) (p.view c)).pool := by
  simp [Part.atUnit, hearHalt_pool, UnitView.settle]

@[simp] theorem Part.atUnit_chans :
    (p.atUnit k c f).chans = p.chans.set c (f (p.context k c) (p.view c)).settle.ch := by
  simp [Part.atUnit, hearHalt_chans]

@[simp] theorem Part.atUnit_lines : (p.atUnit k c f).lines = (f (p.context k c) (p.view c)).settle.lines := by
  simp [Part.atUnit]

end

/-- The admin unit once its current command has completed (R138). -/
def Admin.completed (a : Admin) (e : AcqEntry) : Admin :=
  { a with unit := .posting, completion := some e, deadline := none, waitingOn := .nothing }

theorem Part.complete_admin_cases (p : Part) (status : AdminStatus) (w : Results) :
    (p.complete status w).admin = p.admin ∨ ∃ e, (p.complete status w).admin = p.admin.completed e := by
  unfold Part.complete
  split
  · exact .inl rfl
  · exact .inr ⟨_, rfl⟩

/-- A unit's event leaves the admin unit, or completes the command that waits (R149). -/
theorem Part.atUnit_admin_cases (p : Part) (k : Clock) (c : ChanId) (f : UnitContext → UnitView → UnitView) :
    (p.atUnit k c f).admin = p.admin
      ∨ p.admin.unit = .waiting ∧ ∃ e, (p.atUnit k c f).admin = p.admin.completed e := by
  obtain ⟨u, -, h⟩ := p.atUnit_eq k c f
  rw [h]
  obtain h | ⟨w, -, hw, h⟩ := (p.withView c u).hearHalt_cases c u.told <;> rw [h]
  · exact .inl rfl
  · simp only [Part.waitsOnChannel, Bool.and_eq_true, beq_iff_eq] at hw
    exact ((p.withView c u).complete_admin_cases .ok w.words).imp id fun he => ⟨hw.1, he⟩

theorem Part.restart_frame (p : Part) (q : RingId) :
    (p.restart q).pool = p.pool ∧ (p.restart q).port = p.port ∧ (p.restart q).device = p.device
      ∧ ((p.restart q).admin = p.admin ∨ ∃ e, (p.restart q).admin = p.admin.completed e) := by
  unfold Part.restart
  split
  · exact ⟨rfl, rfl, rfl, .inl rfl⟩
  · exact ⟨by simp, by simp, by simp, Part.complete_admin_cases ..⟩

/-! ### The lists of the pool -/

theorem UnitView.admitted_lists (u : UnitView) (slot : SlotKind) (d : Draft) (q : RingId) :
    u.pool.lists[q] <+: (u.admitted slot d).pool.lists[q] := by
  obtain ⟨-, h⟩ | ⟨r, -, h⟩ := u.admitted_cases slot d <;> rw [h]
  rw [Pool.append_lists]
  split
  · exact List.prefix_append ..
  · exact List.prefix_rfl

theorem UnitView.endActive_lists (x : UnitContext) (status : DoneStatus) (forced : Bool) (u : UnitView) (q : RingId) :
    u.pool.lists[q] <+: (u.endActive x status forced).pool.lists[q] := by
  unfold UnitView.endActive
  split
  · exact List.prefix_rfl
  · refine List.IsPrefix.trans ?_ (UnitView.admitted_lists _ _ _ q)
    exact List.prefix_rfl

/-- Every act of a unit adds entries at the end of the lists alone (R106, R109). -/
theorem UnitView.Act.lists {x : UnitContext} {u v : UnitView} (h : u.Act x v) (q : RingId) :
    u.pool.lists[q] <+: v.pool.lists[q] := by
  cases h with
  | offers body =>
    unfold UnitView.offerCapture
    split
    · exact UnitView.admitted_lists ..
    · exact List.prefix_rfl
  | ends e counter phase status =>
    exact UnitView.endActive_lists x status false { u with ch := u.ch.at counter phase } q
  | halts h counter phase forced =>
    unfold UnitView.endHalted UnitView.stopNow UnitView.closeNow
    dsimp only
    split <;>
      exact UnitView.endActive_lists x .halted forced { u with ch := { u.ch.at counter phase with halt := some h } } q
  | composes d =>
    unfold UnitView.compose
    split
    · exact UnitView.admitted_lists ..
    · exact List.prefix_rfl
  | arms e =>
    unfold UnitView.arm
    split <;> exact List.prefix_rfl
  | removes =>
    refine List.IsPrefix.trans ?_ (UnitView.admitted_lists _ _ _ q)
    exact List.prefix_rfl
  | begins e =>
    unfold UnitView.beginStart UnitView.beginAtTime
    dsimp only
    split_ifs <;> exact List.prefix_rfl
  | reports => exact UnitView.admitted_lists ..
  | tallies | zeroes | requests | flushes | stops | closes | stales | holds | starts | wakes | timesOut =>
    exact List.prefix_rfl

theorem UnitView.Runs.lists {x : UnitContext} {u v : UnitView} (h : u.Runs x v) (q : RingId) :
    u.pool.lists[q] <+: v.pool.lists[q] :=
  h.keeps (P := fun w => u.pool.lists[q] <+: w.pool.lists[q]) (fun _ _ hact hw => hw.trans (hact.lists q))
    List.prefix_rfl

/-! ### The completion rings (R111 to R118) -/

theorem Port.not_carries_of_idle {t : Port} (h : t.current = none) (kind : TxKind) : ¬ t.carries kind := by
  simp [Port.carries, h]

theorem Ring.Law.advance {r : Ring} (h : r.Law) (present : r.state ≠ .absent) (room : r.outstanding + 1 < r.size)
    (half : Bool) : Ring.Law { r.advance with halfWritten := half } := by
  obtain ⟨-, hr⟩ := h
  obtain ⟨hlow, hhigh, hwrite, hhead, hout⟩ := hr present
  refine ⟨fun ha => absurd ha present, fun _ => ⟨hlow, hhigh, bump_lt hwrite, hhead, ?_⟩⟩
  rw [hout] at room
  simp only [Ring.advance]
  rw [forward_bump hhead hwrite room, hout]

theorem Ring.Law.restarted {r : Ring} (h : r.Law) (present : r.state ≠ .absent) (base : Option Word32) :
    (r.restarted base).Law := by
  obtain ⟨hlow, hhigh, hwrite, -⟩ := h.2 present
  exact ⟨nofun, fun _ => ⟨hlow, hhigh, (Nat.zero_le _).trans_lt hwrite, (Nat.zero_le _).trans_lt hwrite,
    (forward_zero_zero _).symm⟩⟩

theorem Ring.Law.returned {r : Ring} (h : r.Law) {index : Nat} (valid : r.takesHead index = true) :
    (r.returned index).Law := by
  simp only [Ring.takesHead, Bool.and_eq_true, bne_iff_ne, ne_eq, decide_eq_true_eq] at valid
  obtain ⟨⟨hpresent, hindex⟩, hle⟩ := valid
  obtain ⟨hlow, hhigh, hwrite, hhead, hout⟩ := h.2 hpresent
  refine ⟨fun ha => absurd ha hpresent, fun _ => ⟨hlow, hhigh, hwrite, hindex, ?_⟩⟩
  simp only [Ring.returned]
  rw [hout] at hle ⊢
  exact (forward_sub hhead hwrite hindex hle).symm

theorem Ring.created_law {base : Word32} {size : Nat} (legal : legalSize 16 4096 size = true) :
    (Ring.created base size).Law := by
  obtain ⟨hlow, hhigh, -⟩ := (legalSize_iff (by decide)).1 legal
  exact ⟨nofun, fun _ => ⟨hlow, hhigh, by simp [Ring.created, Ring.reset]; omega, by simp [Ring.created, Ring.reset]; omega,
    (forward_zero_zero _).symm⟩⟩

theorem Ring.reset_law : Ring.reset.Law := by decide

namespace Part.RingLaw
variable {p p' : Part}

/-- The law reads of the part its rings, whether their lists hold entries, and the live entry write. -/
theorem congr (h : p.RingLaw) (rings : p'.rings = p.rings)
    (lists : ∀ q : RingId, p.pool.lists[q] ≠ [] → p'.pool.lists[q] ≠ [])
    (live : ∀ q part, p'.port.carries (.entryWrite q part) → p.port.carries (.entryWrite q part)) : p'.RingLaw := by
  obtain ⟨hlaw, hroom⟩ := h
  refine ⟨by rwa [rings], fun q part hc => ?_⟩
  obtain ⟨hpresent, hflight, hlist, hspace⟩ := hroom q part (live q part hc)
  simp only [Part.writeHasRoom, rings]
  exact ⟨hpresent, hflight, lists q hlist, hspace⟩

/-- One ring changes, and the port is IDLE, or a live write of that ring still has room. -/
theorem set (h : p.RingLaw) {q : RingId} {r : Ring} (law : r.Law) (rings : p'.rings = p.rings.set q r)
    (pool : p'.pool = p.pool) (live : p'.port.current = none ∨ p'.port = p.port ∧ r.inFlight = p.rings[q].inFlight
      ∧ (p.rings[q].state ≠ .absent → r.state ≠ .absent ∧ (p.rings[q].outstanding + 1 < p.rings[q].size →
        r.outstanding + 1 < r.size))) : p'.RingLaw := by
  obtain ⟨hlaw, hroom⟩ := h
  refine ⟨fun d => ?_, fun d part hc => ?_⟩
  · rw [rings]
    by_cases hd : q = d
    · subst hd
      simpa using law
    · have hv : q.val ≠ d.val := fun hv => hd (Fin.ext hv)
      simpa [hv] using hlaw d
  · obtain hidle | ⟨hport, hflight, hkept⟩ := live
    · exact absurd hc (Port.not_carries_of_idle hidle _)
    rw [hport] at hc
    obtain ⟨hpresent, hin, hlist, hspace⟩ := hroom d part hc
    simp only [Part.writeHasRoom, rings, pool]
    by_cases hd : q = d
    · subst hd
      obtain ⟨hstate, hspare⟩ := hkept hpresent
      simpa using ⟨hstate, hflight.trans hin, hlist, hspare hspace⟩
    · have hv : q.val ≠ d.val := fun hv => hd (Fin.ext hv)
      simpa [hv] using ⟨hpresent, hin, hlist, hspace⟩

/-- A part with an IDLE port and the same rings. -/
theorem of_idle (h : p.RingLaw) (rings : p'.rings = p.rings) (idle : p'.port.current = none) : p'.RingLaw :=
  ⟨by rw [rings]; exact h.1, fun _ _ hc => absurd hc (Port.not_carries_of_idle idle _)⟩

theorem atUnit (h : p.RingLaw) {k : Clock} {c : ChanId} {f : UnitContext → UnitView → UnitView}
    (runs : (p.view c).Runs (p.context k c) (f (p.context k c) (p.view c))) : (p.atUnit k c f).RingLaw := by
  refine h.congr (Part.atUnit_rings ..) (fun q hq => ?_) fun q part hc => by simpa using hc
  rw [Part.atUnit_pool]
  exact fun hnil => hq (List.prefix_nil.1 (hnil ▸ runs.lists q))

theorem restart (h : p.RingLaw) {q : RingId} (present : p.rings[q].state ≠ .absent) : (p.restart q).RingLaw := by
  unfold Part.restart
  split
  · exact h
  next c _ =>
    refine h.set (h.1 q |>.restarted present (newBaseOf c.record)) (by simp) (by simp)
      (.inr ⟨by simp, rfl, fun _ => ⟨by simp [Ring.restarted], fun _ => ?_⟩⟩)
    obtain ⟨hlow, -⟩ := (h.1 q).2 present
    simp only [Ring.restarted]
    omega

theorem grantEntry (h : p.RingLaw) {q : RingId} {e : Entry} {part : EntryPart} (tb : Ticks)
    (asks : p.ringAsks q = some (e, part)) : (p.grantEntry tb q e part).RingLaw := by
  have hneed : ∀ r : Ring, 1 ≤ (r.nextPart e).2 := fun r => by
    unfold Ring.nextPart
    split_ifs <;> decide
  have hring : p.pool.lists[q] ≠ [] ∧ p.rings[q].state = .ready ∧ p.rings[q].outstanding + 1 < p.rings[q].size := by
    unfold Part.ringAsks at asks
    dsimp only at asks
    split at asks
    · cases asks
    next st rest hlist =>
      split at asks
      next hready =>
        obtain ⟨hstate, -, hfree⟩ := hready
        cases asks
        have := hneed p.rings[q]
        simp only [Ring.free] at hfree
        exact ⟨by simp [hlist], hstate, by omega⟩
      · cases asks
  obtain ⟨hlist, hstate, hspace⟩ := hring
  refine ⟨fun d => ?_, fun d part' hc => ?_⟩
  · by_cases hd : q = d
    · subst hd
      simpa [Part.grantEntry] using h.1 q
    · have hv : q.val ≠ d.val := fun hv => hd (Fin.ext hv)
      simpa [Part.grantEntry, hv] using h.1 d
  · have hd : q = d := by
      have := hc.2
      simp only [Part.grantEntry, Part.begin_port, Option.map_some, Option.some.injEq, TxKind.entryWrite.injEq] at this
      exact this.1
    subst hd
    have hpresent : p.rings[q].state ≠ .absent := by rw [hstate]; decide
    simpa [Part.writeHasRoom, Part.grantEntry] using And.intro hpresent (And.intro hlist hspace)

theorem grant (h : p.RingLaw) (tb : Ticks) : (p.grant tb).RingLaw := by
  obtain hg | ⟨-, ⟨e, -, hg⟩ | ⟨q, e, part, asks, hg⟩ | ⟨c, -, hg⟩ | ⟨-, hg⟩ | ⟨-, hg⟩⟩ := p.grant_cases tb <;> rw [hg]
  · exact h
  case inr.inr.inl => exact h.grantEntry tb asks
  all_goals
    exact ⟨h.1, fun _ _ hc => absurd hc.2 (by simp [Part.grantAcq, Part.grantStep, Part.grantAdminRead, Part.grantConfig])⟩

theorem command {k : Clock} {i : Instr} (he : p.CommandEffect k i p') (h : p.RingLaw) (idle : p.port.current = none) :
    p'.RingLaw := by
  cases he with
  | createsRing q base size n w absent legal =>
    exact h.set (Ring.created_law legal) (Part.complete_rings ..) (by simp) (.inl (by simpa using idle))
  | deletesRing q => exact h.set Ring.reset_law (Part.complete_rings ..) (by simp) (.inl (by simpa using idle))
  | restartsRing q present => exact h.restart present
  | passesHalt | closesStopped => exact h.of_idle (by simp [Part.passHalt, Part.atUnit_rings]) (by simpa [Part.passHalt] using idle)
  | completes | waitsOnRing | setsNotice | opens | resumes | joins | splits | setsPosition | parks =>
    exact h.of_idle (by simp [Part.openChannel]) (by simpa [Part.openChannel] using idle)

theorem effect {k : Clock} {i : Instr} (he : p.Effect True k i p') (h : p.RingLaw) : p'.RingLaw := by
  cases he with
  | chooses used => exact h.congr (by simp) (by simp) (by simp)
  | grants => exact h.grant k.tb
  | unit c f runs => exact h.atUnit runs
  | returns c fault f idle => exact h.of_idle (Part.atUnit_rings ..) (by simpa using idle)
  | joins => exact h.of_idle (by simp [Part.atUnit_rings]) (by simp)
  | writes q part half live =>
    obtain ⟨hpresent, -, -, hspace⟩ := h.2 q part live
    exact h.set ((h.1 q).advance hpresent hspace half) rfl rfl (.inl rfl)
  | writeFails q part live =>
    obtain ⟨hpresent, -⟩ := h.2 q part live
    have hring := (h.1 q).2 hpresent
    exact h.set (r := { p.rings[q] with inFlight := false, state := .faulted }) ⟨nofun, fun _ => hring⟩ rfl rfl (.inl rfl)
  | drops q command idle => exact h.of_idle rfl idle
  | restarts q waits present => exact h.restart (present trivial)
  | completes => exact h.congr (by simp) (by simp) (by simp)
  | commands opcode r q live effect => exact command effect (h.of_idle (p' := p.endTransaction.take opcode r) rfl rfl) rfl
  | postsHead q index valid =>
    refine h.set ((h.1 q).returned valid) rfl rfl (.inr ⟨rfl, rfl, fun hp => ⟨hp, fun hspace => ?_⟩⟩)
    simp only [Ring.returned]
    omega
  | restartsAdmin waiting notices state =>
    refine h.congr ?_ ?_ ?_ <;>
      obtain ⟨-, hd⟩ | ⟨-, -, _, hd | ⟨-, hd⟩⟩ := p.dropAdminTransaction_cases k waiting <;> simp [hd]
  | configures b live =>
    unfold Part.configured
    split <;> exact h.of_idle rfl rfl
  | ends | acqDone | faults => exact h.of_idle rfl rfl
  | withdraws | notices | rotates | untimes | postsTail | postsAdminTail | postsAcqHead | registers | enables =>
    exact h.congr rfl (fun _ hq => hq) (fun _ _ hc => hc)

end Part.RingLaw

end Sys2Proof.Machine
end

section
/-! PROOF. The ACQ's law and the admin unit's law (R138, R141), and that every command keeps the laws of the rings, of the
ACQ and of the admin unit. -/

namespace Sys2Proof.Machine

/-! ### The ACQ (R138, R139) -/

namespace Part.AcqLaw
variable {p p' : Part}

/-- The law reads of the part the ACQ's size, indices and count, and the unit where an ACQ write is live. -/
theorem congr (h : p.AcqLaw) (size : p'.admin.acqSize = p.admin.acqSize) (write : p'.admin.acqWrite = p.admin.acqWrite)
    (head : p'.admin.acqHead = p.admin.acqHead) (out : p'.admin.acqOutstanding = p.admin.acqOutstanding)
    (live : p'.port.carries .acqWrite → p.port.carries .acqWrite ∧ (p.admin.unit = .posting → p'.admin.unit = .posting)) :
    p'.AcqLaw := by
  obtain ⟨hzero, hsize, hlive⟩ := h
  rw [Part.AcqLaw, size, write, head, out]
  refine ⟨hzero, hsize, fun hc => ?_⟩
  obtain ⟨hc, hu⟩ := live hc
  obtain ⟨hunit, hroom⟩ := hlive hc
  exact ⟨hu hunit, hroom⟩

/-- A part with the same admin unit and no new ACQ write. -/
theorem of_admin (h : p.AcqLaw) (admin : p'.admin = p.admin)
    (live : p'.port.carries .acqWrite → p.port.carries .acqWrite) : p'.AcqLaw :=
  h.congr (by rw [admin]) (by rw [admin]) (by rw [admin]) (by rw [admin]) fun hc => ⟨live hc, by rw [admin]; exact id⟩

/-- The admin unit stays, or its command completes. -/
theorem completed (h : p.AcqLaw) (admin : p'.admin = p.admin ∨ ∃ e, p'.admin = p.admin.completed e)
    (live : p'.port.carries .acqWrite → p.port.carries .acqWrite) : p'.AcqLaw := by
  obtain hadmin | ⟨e, hadmin⟩ := admin
  · exact h.of_admin hadmin live
  · exact h.congr (by rw [hadmin]; rfl) (by rw [hadmin]; rfl) (by rw [hadmin]; rfl) (by rw [hadmin]; rfl)
      fun hc => ⟨live hc, fun _ => by rw [hadmin]; rfl⟩

theorem atUnit (h : p.AcqLaw) {k : Clock} {c : ChanId} {f : UnitContext → UnitView → UnitView} :
    (p.atUnit k c f).AcqLaw :=
  h.completed ((p.atUnit_admin_cases k c f).imp id fun hw => hw.2) (by simp)

/-- An ACQ write that has room advances the write index and the count (R138). -/
theorem acqDone (h : p.AcqLaw) (live : p.port.carries .acqWrite) (k : Clock) : (p.endTransaction.acqDone k).AcqLaw := by
  obtain ⟨hzero, hsize, hlive⟩ := h
  obtain ⟨-, hroom⟩ := hlive live
  refine ⟨fun hz => ?_, fun hs => ?_, fun hc => absurd hc (Port.not_carries_of_idle rfl _)⟩
  · change p.admin.acqSize = 0 at hz
    omega
  · obtain ⟨hwrite, hhead, hout⟩ := hsize hs
    rw [hout] at hroom
    refine ⟨bump_lt hwrite, hhead, ?_⟩
    simp only [Part.acqDone, report_admin, endTransaction_admin]
    rw [forward_bump hhead hwrite hroom, hout]

theorem returned (h : p.AcqLaw) {index : Nat} (valid : p.admin.takesHead index = true) :
    Part.AcqLaw { p with admin := p.admin.returned index } := by
  obtain ⟨-, hsize, hlive⟩ := h
  simp only [Admin.takesHead, Bool.and_eq_true, decide_eq_true_eq] at valid
  obtain ⟨hindex, hle⟩ := valid
  obtain ⟨hwrite, hhead, hout⟩ := hsize (by omega)
  refine ⟨fun hz => ?_, fun _ => ⟨hwrite, hindex, ?_⟩, fun hc => ?_⟩
  · simp only [Admin.returned] at hz
    omega
  · simp only [Admin.returned]
    rw [hout] at hle ⊢
    exact (forward_sub hhead hwrite hindex hle).symm
  · obtain ⟨hunit, hroom⟩ := hlive hc
    refine ⟨hunit, ?_⟩
    simp only [Admin.returned]
    omega

theorem grant (h : p.AcqLaw) (tb : Ticks) : (p.grant tb).AcqLaw := by
  obtain hg | ⟨-, ⟨e, asks, hg⟩ | ⟨q, e, part, -, hg⟩ | ⟨c, -, hg⟩ | ⟨-, hg⟩ | ⟨-, hg⟩⟩ := p.grant_cases tb <;> rw [hg]
  · exact h
  · refine ⟨h.1, h.2.1, fun _ => ?_⟩
    unfold Admin.asksWrite at asks
    split at asks
    next hasks =>
      refine ⟨hasks.1, ?_⟩
      change p.admin.acqOutstanding + 1 < p.admin.acqSize
      omega
    · cases asks
  all_goals
    exact ⟨h.1, h.2.1, fun hc => absurd hc.2 (by
      simp [Part.grantEntry, Part.grantStep, Part.grantAdminRead, Part.grantConfig])⟩

/-- What an admin command leaves of the ACQ. -/
theorem command {k : Clock} {i : Instr} (he : p.CommandEffect k i p') (h : p.AcqLaw) (idle : p.port.current = none) :
    p'.AcqLaw := by
  have finishes : ∀ {p1 : Part} (status : AdminStatus) (w : Results), p1.AcqLaw → (p1.complete status w).AcqLaw :=
    fun status w h1 => h1.completed (Part.complete_admin_cases ..) (by simp)
  cases he with
  | completes status w => exact finishes status w h
  | restartsRing q =>
    obtain ⟨-, hport, -, hadmin⟩ := p.restart_frame q
    exact h.completed hadmin (by rw [hport]; exact id)
  | passesHalt c close boundary deadline =>
    exact atUnit (p := p.waitOnChannel k c deadline)
      (h.congr rfl rfl rfl rfl fun hc => absurd hc (Port.not_carries_of_idle idle _))
  | closesStopped => exact finishes _ _ h.atUnit
  | waitsOnRing => exact h.congr rfl rfl rfl rfl fun hc => absurd hc (Port.not_carries_of_idle idle _)
  | createsRing | deletesRing | setsNotice | opens | resumes | joins | splits | setsPosition | parks =>
    exact finishes _ _ (h.of_admin rfl id)


end Part.AcqLaw

/-! ### Restarts and faults -/

/-- A restart leaves the admin unit no live transaction, and touches no other (R168). -/
theorem Part.dropAdminTransaction_port (p : Part) (k : Clock) (waiting : List Instr) :
    ¬ (p.dropAdminTransaction k waiting).port.carries .acqWrite
      ∧ ¬ (p.dropAdminTransaction k waiting).port.carries .adminRead
      ∧ ∀ kind, (p.dropAdminTransaction k waiting).port.carries kind → p.port.carries kind := by
  obtain ⟨hnone, h⟩ | ⟨-, -, _, h | ⟨-, h⟩⟩ := p.dropAdminTransaction_cases k waiting <;> rw [h]
  · refine ⟨fun hc => hnone ?_, fun hc => hnone ?_, fun _ => id⟩
    all_goals
      obtain ⟨hd, hk⟩ := hc
      obtain ⟨t, ht, hkind⟩ := Option.map_eq_some_iff.1 hk
      exact ⟨by simp [Port.carriesAdmin, ht, hkind], hd⟩
  · simp
  · simp

theorem Part.configured_idle {p : Part} (b : ConfigBlock) (idle : p.port.current = none) :
    (p.configured b).port.current = none := by
  unfold Part.configured
  split <;> exact idle

theorem Part.AcqLaw.effect {known : Prop} {k : Clock} {i : Instr} {p p' : Part} (he : p.Effect known k i p')
    (h : p.AcqLaw) : p'.AcqLaw := by
  have ended : p.endTransaction.AcqLaw :=
    h.congr rfl rfl rfl rfl fun hc => absurd hc (Port.not_carries_of_idle rfl _)
  cases he with
  | chooses used => exact h.of_admin (by simp) (by simp)
  | grants => exact h.grant k.tb
  | unit | returns => exact h.atUnit
  | joins => exact ended.atUnit
  | restarts q =>
    obtain ⟨-, hport, -, hadmin⟩ := p.restart_frame q
    exact h.completed hadmin (by rw [hport]; exact id)
  | completes => exact h.completed (Part.complete_admin_cases ..) (by simp)
  | acqDone live => exact h.acqDone live k
  | configures b =>
    have hidle := Part.configured_idle (p := p.endTransaction) b rfl
    unfold Part.configured at hidle ⊢
    split
    · exact ended.congr rfl rfl rfl rfl fun hc => absurd hc (Port.not_carries_of_idle rfl _)
    · exact ⟨fun _ => rfl, fun hs => ⟨Nat.pos_of_ne_zero hs, Nat.pos_of_ne_zero hs, (forward_zero_zero _).symm⟩,
        fun hc => absurd hc (Port.not_carries_of_idle rfl _)⟩
  | commands opcode r q live effect =>
    exact Part.AcqLaw.command effect (ended.congr (p' := p.endTransaction.take opcode r) rfl rfl rfl rfl
      fun hc => absurd hc (Port.not_carries_of_idle rfl _)) rfl
  | postsAcqHead index valid => exact h.returned valid
  | restartsAdmin waiting notices state =>
    exact h.congr rfl rfl rfl rfl fun hc => absurd hc (p.dropAdminTransaction_port k waiting).1
  | ends | writes | writeFails => exact ended.of_admin rfl id
  | faults => exact ended.congr rfl rfl rfl rfl fun hc => absurd hc (Port.not_carries_of_idle rfl _)
  | withdraws | notices | drops | rotates | untimes | postsTail | postsHead | postsAdminTail | registers | enables =>
    exact h.congr rfl rfl rfl rfl fun hc => ⟨hc, id⟩

/-! ### The admin unit (R134, R138, R141, R165) -/

namespace Part.AdminLaw
variable {p p' : Part}

/-- The law reads of the part the unit, its deadline and what it waits on, the device's state and the live transaction. -/
theorem congr (h : p.AdminLaw) (unit : p'.admin.unit = p.admin.unit)
    (deadline : p'.admin.deadline = p.admin.deadline ∨ p'.admin.deadline = none)
    (waitingOn : p'.admin.waitingOn = p.admin.waitingOn) (device : p'.device.state = p.device.state)
    (live : ∀ kind, p'.port.carries kind →
      p.port.carries kind ∨ (∃ c, kind = .stepRead c) ∨ ∃ q part, kind = .entryWrite q part) : p'.AdminLaw := by
  obtain ⟨htimer, hwaits, hread, hwrite, hconfig⟩ := h
  rw [Part.AdminLaw, unit, waitingOn, device]
  refine ⟨fun hd => htimer fun hn => hd ?_, hwaits, fun hc => hread ?_, fun hc => hwrite ?_, fun hc => hconfig ?_⟩
  · obtain hk | hk := deadline
    · rw [hk, hn]
    · exact hk
  all_goals
    obtain h | ⟨_, h⟩ | ⟨_, _, h⟩ := live _ hc
    · exact h
    · cases h
    · cases h

/-- A waiting unit completes its command (R149), or a unit that waits for nothing does, with an IDLE port. -/
theorem completed (h : p.AdminLaw) (admin : p'.admin = p.admin ∨ ∃ e, p'.admin = p.admin.completed e)
    (waits : p.admin.unit = .waiting ∨ p.port.current = none) (device : p'.device.state = p.device.state)
    (port : p'.port = p.port) : p'.AdminLaw := by
  obtain ⟨htimer, hwaits, hread, hwrite, hconfig⟩ := h
  have idle : p.admin.unit = .waiting → ¬ p.port.carries .adminRead ∧ ¬ p.port.carries .configRead := fun hw =>
    ⟨fun hc => absurd ((hread hc).1.symm.trans hw) nofun, fun hc => absurd ((hconfig hc).symm.trans (hwaits hw)) nofun⟩
  have dead : ¬ p.port.carries .adminRead ∧ ¬ p.port.carries .configRead :=
    waits.elim idle fun hi => ⟨Port.not_carries_of_idle hi _, Port.not_carries_of_idle hi _⟩
  obtain hadmin | ⟨e, hadmin⟩ := admin
  · rw [Part.AdminLaw, hadmin, device, port]
    exact ⟨htimer, hwaits, hread, hwrite, hconfig⟩
  · rw [Part.AdminLaw, hadmin, device, port]
    exact ⟨fun hd => absurd rfl hd, nofun, fun hc => absurd hc dead.1, fun _ => rfl, fun hc => absurd hc dead.2⟩

theorem atUnit (h : p.AdminLaw) {k : Clock} {c : ChanId} {f : UnitContext → UnitView → UnitView} :
    (p.atUnit k c f).AdminLaw := by
  obtain hadmin | ⟨hw, hadmin⟩ := p.atUnit_admin_cases k c f
  · exact h.congr (by rw [hadmin]) (.inl (by rw [hadmin])) (by rw [hadmin]) (by simp) fun kind hc => .inl (by simpa using hc)
  · exact h.completed (.inr hadmin) (.inl hw) (by simp) (by simp)

/-- An IDLE port, a stopped deadline timer and a unit that does not wait. -/
theorem of_quiet (idle : p.port.current = none) (deadline : p.admin.deadline = none) (unit : p.admin.unit ≠ .waiting) :
    p.AdminLaw :=
  ⟨fun hd => absurd deadline hd, fun hw => absurd hw unit, fun hc => absurd hc (Port.not_carries_of_idle idle _),
    fun hc => absurd hc (Port.not_carries_of_idle idle _), fun hc => absurd hc (Port.not_carries_of_idle idle _)⟩

/-- A unit that does not wait runs no deadline timer. -/
theorem deadline_none (h : p.AdminLaw) (unit : p.admin.unit ≠ .waiting) : p.admin.deadline = none := by
  by_contra hd
  exact unit (h.1 hd).1

/-- The unit does not wait while a transaction of its own or of the device is live. -/
theorem not_waiting (h : p.AdminLaw) {kind : TxKind} (live : p.port.carries kind)
    (own : kind = .acqWrite ∨ kind = .adminRead ∨ kind = .configRead) : p.admin.unit ≠ .waiting := by
  obtain ⟨-, hwaits, hread, hwrite, hconfig⟩ := h
  intro hw
  obtain rfl | rfl | rfl := own
  · rw [hwrite live] at hw
    cases hw
  · rw [(hread live).1] at hw
    cases hw
  · have hs := hconfig live
    rw [hwaits hw] at hs
    cases hs

theorem grant (h : p.AdminLaw) (tb : Ticks) : (p.grant tb).AdminLaw := by
  obtain hg | ⟨-, ⟨e, asks, hg⟩ | ⟨q, e, part, -, hg⟩ | ⟨c, -, hg⟩ | ⟨asks, hg⟩ | ⟨asks, hg⟩⟩ := p.grant_cases tb
    <;> rw [hg]
  · exact h
  · obtain ⟨htimer, hwaits, -⟩ := h
    unfold Admin.asksWrite at asks
    split at asks
    next hasks =>
      exact ⟨htimer, hwaits, fun hc => absurd hc.2 (by simp [Part.grantAcq]), fun _ => hasks.1,
        fun hc => absurd hc.2 (by simp [Part.grantAcq])⟩
    · cases asks
  · exact h.congr rfl (.inl rfl) rfl rfl fun kind hc => .inr (.inr ⟨q, part, (Option.some.inj hc.2).symm⟩)
  · exact h.congr rfl (.inl rfl) rfl rfl fun kind hc => .inr (.inl ⟨c, (Option.some.inj hc.2).symm⟩)
  · simp only [Part.asksAdminRead, Bool.and_eq_true, beq_iff_eq] at asks
    have hdead := h.deadline_none (by rw [asks.1.1]; decide)
    exact ⟨fun hd => absurd hdead hd, nofun, fun _ => ⟨rfl, asks.2⟩, fun hc => absurd hc.2 (by simp [Part.grantAdminRead]),
      fun hc => absurd hc.2 (by simp [Part.grantAdminRead])⟩
  · simp only [Part.asksConfigRead, Bool.and_eq_true, beq_iff_eq] at asks
    obtain ⟨htimer, hwaits, -⟩ := h
    exact ⟨htimer, hwaits, fun hc => absurd hc.2 (by simp [Part.grantConfig]), fun hc => absurd hc.2 (by simp [Part.grantConfig]),
      fun _ => asks.1⟩

/-- An admin command finds the unit EXECUTING in RUNNING, with no deadline timer and an IDLE port. -/
theorem command {k : Clock} {i : Instr} (he : p.CommandEffect k i p') (idle : p.port.current = none)
    (deadline : p.admin.deadline = none) (unit : p.admin.unit = .executing) (running : p.device.state = .running) :
    p'.AdminLaw := by
  have h : p.AdminLaw := of_quiet idle deadline (by rw [unit]; decide)
  have finishes : ∀ {p1 : Part} (status : AdminStatus) (w : Results), p1.AdminLaw → p1.port.current = none →
      (p1.complete status w).AdminLaw := fun status w h1 hidle =>
    h1.completed (Part.complete_admin_cases ..) (.inr hidle) (by simp) (by simp)
  have dead : ∀ kind, ¬ p.port.carries kind := Port.not_carries_of_idle idle
  cases he with
  | completes status w => exact finishes status w h idle
  | restartsRing q =>
    obtain ⟨-, hport, hdevice, hadmin⟩ := p.restart_frame q
    exact h.completed hadmin (.inr idle) (by rw [hdevice]) hport
  | passesHalt c close boundary deadline =>
    exact atUnit (p := p.waitOnChannel k c deadline) ⟨fun _ => ⟨rfl, c, rfl⟩, fun _ => running,
      fun hc => absurd hc (dead _), fun hc => absurd hc (dead _), fun hc => absurd hc (dead _)⟩
  | closesStopped => exact finishes _ _ h.atUnit (by simpa using idle)
  | waitsOnRing q =>
    exact ⟨fun hd => absurd deadline hd, fun _ => running, fun hc => absurd hc (dead _), fun hc => absurd hc (dead _),
      fun hc => absurd hc (dead _)⟩
  | createsRing | deletesRing | setsNotice | opens | resumes | joins | splits | setsPosition | parks =>
    exact finishes _ _ (h.congr rfl (.inl rfl) rfl rfl fun _ hc => .inl hc) idle

theorem effect {known : Prop} {k : Clock} {i : Instr} (he : p.Effect known k i p') (h : p.AdminLaw) : p'.AdminLaw := by
  have ended : p.endTransaction.AdminLaw :=
    h.congr rfl (.inl rfl) rfl rfl fun _ hc => absurd hc (Port.not_carries_of_idle rfl _)
  cases he with
  | chooses used => exact h.congr (by simp) (.inl (by simp)) (by simp) (by simp) fun _ hc => .inl (by simpa using hc)
  | grants => exact h.grant k.tb
  | unit | returns => exact h.atUnit
  | joins => exact ended.atUnit
  | restarts q waits =>
    obtain ⟨-, hport, hdevice, hadmin⟩ := p.restart_frame q
    exact h.completed hadmin (.inl waits) (by rw [hdevice]) hport
  | completes status w waits => exact h.completed (Part.complete_admin_cases ..) (.inl waits) (by simp) (by simp)
  | acqDone live =>
    exact of_quiet rfl (h.deadline_none (h.not_waiting live (.inl rfl))) nofun
  | faults kind cause live own => exact of_quiet rfl (h.deadline_none (h.not_waiting live own)) nofun
  | configures b live =>
    have hdead := h.deadline_none (h.not_waiting live (.inr (.inr rfl)))
    unfold Part.configured
    split
    · exact of_quiet rfl hdead nofun
    · exact of_quiet rfl rfl nofun
  | commands opcode r q live effect =>
    exact command (p := p.endTransaction.take opcode r) effect rfl
      (h.deadline_none (h.not_waiting live (.inr (.inl rfl)))) rfl (h.2.2.1 live).2
  | untimes => exact h.congr rfl (.inr rfl) rfl rfl fun _ hc => .inl hc
  | registers d state => exact h.congr rfl (.inl rfl) rfl state fun _ hc => .inl hc
  | enables disabled =>
    obtain ⟨htimer, hwaits, hread, hwrite, -⟩ := h
    rw [disabled] at hwaits hread
    exact ⟨htimer, fun hw => absurd (hwaits hw) nofun, fun hc => absurd (hread hc).2 nofun, hwrite, fun _ => rfl⟩
  | restartsAdmin waiting notices state =>
    obtain ⟨hwrite, hread, -⟩ := p.dropAdminTransaction_port k waiting
    exact ⟨fun hd => absurd rfl hd, nofun, fun hc => absurd hc hread, fun hc => absurd hc hwrite, fun _ => rfl⟩
  | ends | writes | writeFails => exact ended.congr rfl (.inl rfl) rfl rfl fun _ hc => .inl hc
  | withdraws | notices | drops | rotates | postsTail | postsHead | postsAdminTail | postsAcqHead =>
    exact h.congr rfl (.inl rfl) rfl rfl fun _ hc => .inl hc

end Part.AdminLaw

/-! ### The resets -/

/-- After a reset an outstanding transaction is discarded, so none is live (R163). -/
theorem Port.not_carries_of_discarded {t : Port} (h : t.discard = t.current.isSome) (kind : TxKind) :
    ¬ t.carries kind := by
  rintro ⟨hd, hk⟩
  obtain ⟨tx, ht, -⟩ := Option.map_eq_some_iff.1 hk
  rw [h, ht] at hd
  cases hd

theorem Part.afterReset_ringLaw {p : Part} {cfgBase : Word32} {port : Port} (h : port.discard = port.current.isSome) :
    Part.RingLaw { p.afterReset cfgBase with port := port } :=
  ⟨fun q => by simpa [Part.afterReset, Part.reset] using Ring.reset_law,
    fun _ _ hc => absurd hc (Port.not_carries_of_discarded h _)⟩

theorem Part.afterReset_acqLaw {p : Part} {cfgBase : Word32} {port : Port} (h : port.discard = port.current.isSome) :
    Part.AcqLaw { p.afterReset cfgBase with port := port } :=
  ⟨fun _ => rfl, fun hs => absurd rfl hs, fun hc => absurd hc (Port.not_carries_of_discarded h _)⟩

theorem Part.afterReset_adminLaw {p : Part} {cfgBase : Word32} {port : Port} (h : port.discard = port.current.isSome) :
    Part.AdminLaw { p.afterReset cfgBase with port := port } :=
  ⟨fun hd => absurd rfl hd, nofun, fun hc => absurd hc (Port.not_carries_of_discarded h _),
    fun hc => absurd hc (Port.not_carries_of_discarded h _), fun hc => absurd hc (Port.not_carries_of_discarded h _)⟩

/-- Settles O58: each law is kept by every effect of a command, by the resets, after which no transaction is live, and by
the end of a tick, which touches neither rings nor units. -/
theorem everyCommandKeepsTheRingLaws : Obligations.EveryCommandKeepsTheRingLaws := by
  refine ⟨fun s t i hs h => ?_, fun s t i hs h => ?_, fun s t i hs h => ?_⟩
  · exact exec_keeps (P := Part.RingLaw) (known := True) (fun _ _ _ _ => Part.RingLaw.effect)
      (fun _ _ _ _ => Part.afterReset_ringLaw) (fun _ _ h => h) (fun _ h _ q part hc => (h.2 q part hc).1) hs h
  · exact exec_keeps (P := Part.AcqLaw) (known := False) (fun _ _ _ _ => Part.AcqLaw.effect)
      (fun _ _ _ _ => Part.afterReset_acqLaw) (fun _ _ h => h) (fun _ _ h => h.elim) hs h
  · exact exec_keeps (P := Part.AdminLaw) (known := False) (fun _ _ _ _ => Part.AdminLaw.effect)
      (fun _ _ _ _ => Part.afterReset_adminLaw) (fun _ _ h => h) (fun _ _ h => h.elim) hs h

end Sys2Proof.Machine
end

section
/-! PROOF. The window law alone is not kept (R4, R20): it does not say that a CLOSED channel holds no halt request, as
the law of the channels does, and a deadline that finds such a request stops the CLOSED channel without a ring. -/

namespace Sys2Proof.Machine

/-- The machine after reset, but that CLOSED channel 0 holds a halt request, for which a command waits whose deadline falls
in this tick. -/
def haltAtClosed : State :=
  { State.reset with part := { Part.reset with
      chans := Part.reset.chans.set 0 { Channel.reset with
        halt := some { close := false, boundary := true, deadline := true, flushed := 0, firstTag := 0 } }
      admin := { Admin.reset with unit := .waiting, waitingOn := .channel 0, deadline := some 0 } } }

theorem haltAtClosed_windowLaw : haltAtClosed.part.WindowLaw := by decide

/-- Its deadline makes channel 0 STOPPED, with a step ring of no slots. -/
theorem haltAtClosed_deadline : ∃ t, exec .deadlineExpiry haltAtClosed = .next t
    ∧ t.part.chans[0].state = .stopped ∧ t.part.chans[0].ringSize = 0 := by
  refine ⟨_, rfl, ?_, ?_⟩ <;> decide

/-- Refutes O56: DEADLINE_EXPIRY forces the halt request that the CLOSED channel holds, and leaves the channel STOPPED with
a ring of size 0, where the law asks for four slots. -/
theorem not_everyCommandKeepsTheWindowLaw : ¬ Obligations.EveryCommandKeepsTheWindowLaw := by
  rintro ⟨keeps, -⟩
  obtain ⟨t, ht, hstate, hsize⟩ := haltAtClosed_deadline
  obtain ⟨⟨-, -, -, hopen, -⟩, -⟩ := keeps haltAtClosed t .deadlineExpiry haltAtClosed_windowLaw ht 0
  have hslots := (hopen (by simp [hstate]) (by simp [hstate])).2
  simp [hsize] at hslots

end Sys2Proof.Machine
end

section
/-! PROOF. The channel law (R3, R20, R67, R77): what each act of a unit leaves of a channel context, and that the law, but
for the state that the close of the event sets, holds between any two acts. -/

namespace Sys2Proof.Machine

/-! ### What the acts leave of a channel context -/

theorem UnitView.admitted_ch (u : UnitView) (slot : SlotKind) (d : Draft) :
    ∃ seq missed, (u.admitted slot d).ch = { u.ch with seq := seq, missed := missed } := by
  obtain ⟨-, h⟩ | ⟨q, -, h⟩ := u.admitted_cases slot d <;> rw [h]
  · exact ⟨u.ch.seq, u.ch.missed, rfl⟩
  · exact ⟨_, _, rfl⟩

theorem UnitView.endActive_ch (x : UnitContext) (status : DoneStatus) (forced : Bool) (u : UnitView) :
    ∃ running seq missed, (u.endActive x status forced).ch
      = { u.ch with active := none, running := running, seq := seq, missed := missed } := by
  unfold UnitView.endActive
  split
  next hnone => exact ⟨u.ch.running, u.ch.seq, u.ch.missed, by rw [← hnone]⟩
  · obtain ⟨seq, missed, h⟩ := UnitView.admitted_ch _ _ _
    exact ⟨false, seq, missed, h⟩

theorem UnitView.arm_ch (x : UnitContext) (e : Step) (u : UnitView) :
    ∃ armed, (u.arm x e).ch = { u.ch with armed := armed }
      ∧ (armed.isGood = true → validate u.ch x.wide e.record = none) := by
  unfold UnitView.arm
  split
  next h => exact ⟨.good, rfl, fun _ => h⟩
  · exact ⟨_, rfl, nofun⟩

theorem UnitView.remove_ch (x : UnitContext) (e : Step) (status : DoneStatus) (value : Nat) (time : Ticks)
    (u : UnitView) : ∃ seq missed, (u.remove x e status value time).ch
      = { u.ch with queue := u.ch.queue.tail, armed := .none, seq := seq, missed := missed } :=
  UnitView.stage_ch _ _

/-- The evaluation that a unit begins is not yet due in the tick that begins it (R78, R81). -/
def Evaluation.quietAt (e : Evaluation) (tb : Ticks) : Prop :=
  e ≠ .atTime (tb + 1) ∧ ∀ source, e ≠ .onMark source (some tb)

/-- A start that begins is due or is decided, or its condition is evaluated and it stays GOOD (R11, R77). -/
theorem UnitView.beginStart_ch (x : UnitContext) (e : Step) (u : UnitView) :
    (∃ armed, (u.beginStart x e).ch = { u.ch with armed := armed } ∧ armed ≠ .none)
      ∨ ∃ evaluation, (u.beginStart x e).ch = { u.ch with evaluation := evaluation }
        ∧ evaluation.quietAt x.clock.tb := by
  unfold UnitView.beginStart
  split
  · unfold UnitView.beginAtTime
    dsimp only
    split_ifs with hzero
    · exact .inl ⟨_, rfl, nofun⟩
    · refine .inr ⟨_, rfl, fun h => hzero ?_, nofun⟩
      rw [Evaluation.atTime.inj h, BitVec.sub_self]
      rfl
    · exact .inl ⟨_, rfl, nofun⟩
    · exact .inl ⟨_, rfl, nofun⟩
  · split
    · refine .inr ⟨_, rfl, nofun, fun source h => ?_⟩
      obtain ⟨-, hexpiry⟩ := Evaluation.onMark.inj h
      split_ifs at hexpiry with hzero
      have hsum := Option.some.inj hexpiry
      have : e.record.startTimeout.setWidth 48 = 0 := by bv_omega
      exact hzero (by bv_omega)
    · exact .inl ⟨_, rfl, nofun⟩

/-- A channel whose step ended HALTED under the request `h`: STOPPED, or CLOSED where the request's purpose is CLOSE
(R21, R22). -/
theorem UnitView.endHalted_eq (x : UnitContext) (forced : Bool) {u : UnitView} {h : HaltRequest}
    (asked : u.ch.halt = some h) : ∃ (w : UnitView) (running : Bool) (seq : BitVec 8) (missed : Nat),
      w.lines = (u.endActive x .halted forced).lines
      ∧ w.ch = { u.ch with
        active := none, running := running, seq := seq, missed := missed, state := .stopped, halt := none }
      ∧ (u.endHalted x forced = w ∨ u.endHalted x forced = w.closeNow x) := by
  obtain ⟨running, seq, missed, hch⟩ := u.endActive_ch x .halted forced
  refine ⟨UnitView.stopNow x false { u.endActive x .halted forced with
    told := some { isFlush := false, flushed := h.flushed, sqHead := u.ch.fetchIndex } }, running, seq, missed, rfl, ?_, ?_⟩
  · simp [UnitView.stopNow, hch]
  · unfold UnitView.endHalted
    rw [asked]
    dsimp only [UnitView.stopNow]
    cases h.close
    · exact .inl rfl
    · exact .inr rfl

/-! ### The channel law between two acts -/

/-- The law of a channel in the midst of an event: everything but the state that an open channel takes from its window
at the event's close (R3). -/
structure Channel.MidLaw (ch : Channel) : Prop where
  shut : ch.isShut ∨ ch.state = .stopped → ch.active = none ∧ ch.queue = []
  halt : ch.halt.isSome = true → ch.active.isSome = true ∧ ch.queue = []
  position : ∀ e ∈ ch.active, e.record.isKind .position = true → ch.halt = none
  evaluates : ch.evaluation ≠ .none → ch.armed = .good ∧ ch.active = none ∧ ch.queue ≠ []
  armed : ch.queue = [] → ch.armed = .none

theorem Channel.derivedState_of_shut {ch : Channel} (h : ch.isShut ∨ ch.state = .stopped) : ch.derivedState = ch.state := by
  obtain (h | h) | h := h <;> simp [Channel.derivedState, h]

theorem Channel.derivedState_of_open {ch : Channel} (hshut : ¬ ch.isShut) (hstop : ch.state ≠ .stopped) :
    ch.derivedState = if ch.active.isSome then .active else if ch.queue.isEmpty then .idle
      else if ch.evaluation = .none then .held else .waiting := by
  unfold Channel.derivedState
  cases hs : ch.state <;> simp_all [Channel.isShut]

theorem Channel.isShut_settled (ch : Channel) : Channel.isShut { ch with state := ch.derivedState } ↔ ch.isShut := by
  unfold Channel.isShut Channel.derivedState
  cases ch.state <;> simp <;> split_ifs <;> simp

theorem Channel.stopped_settled (ch : Channel) : ch.derivedState = .stopped ↔ ch.state = .stopped := by
  unfold Channel.derivedState
  cases ch.state <;> simp <;> split_ifs <;> simp

theorem Channel.subordinate_settled (ch : Channel) : ch.derivedState = .subordinate ↔ ch.state = .subordinate := by
  unfold Channel.derivedState
  cases ch.state <;> simp <;> split_ifs <;> simp

theorem Channel.closed_settled (ch : Channel) : ch.derivedState = .closed ↔ ch.state = .closed := by
  unfold Channel.derivedState
  cases ch.state <;> simp <;> split_ifs <;> simp

theorem Channel.derivedState_settled (ch : Channel) :
    Channel.derivedState { ch with state := ch.derivedState } = ch.derivedState := by
  by_cases h : ch.isShut ∨ ch.state = .stopped
  · rw [Channel.derivedState_of_shut h]
    exact Channel.derivedState_of_shut h
  · rw [not_or] at h
    rw [Channel.derivedState_of_open (ch := { ch with state := ch.derivedState })
      ((not_congr ch.isShut_settled).2 h.1) ((not_congr ch.stopped_settled).2 h.2), Channel.derivedState_of_open h.1 h.2]

theorem Channel.Law.mid {ch : Channel} (h : ch.Law) : ch.MidLaw := by
  obtain ⟨-, -, -, hempty, hhalt, hposition, hevaluates, harmed⟩ := h
  exact ⟨fun hs => hempty (by simp only [Channel.isShut] at hs; tauto), hhalt, hposition, hevaluates, harmed⟩

theorem Channel.MidLaw.law {ch : Channel} (h : ch.MidLaw) (derived : ch.state = ch.derivedState) : ch.Law := by
  by_cases hs : ch.isShut ∨ ch.state = .stopped
  · obtain ⟨hactive, hqueue⟩ := h.shut hs
    have heval : ch.evaluation = .none := by
      by_contra hne
      exact (h.evaluates hne).2.2 hqueue
    have hstate : ch.state ≠ .active ∧ ch.state ≠ .waiting ∧ ch.state ≠ .held := by
      obtain (hs | hs) | hs := hs <;> simp [hs]
    obtain ⟨hact, hwait, hheld⟩ := hstate
    exact ⟨by simp [hact, hactive], by simp [hwait, heval], fun hh => absurd hh hheld, fun _ => ⟨hactive, hqueue⟩, h.halt,
      h.position, h.evaluates, h.armed⟩
  · rw [not_or] at hs
    rw [Channel.derivedState_of_open hs.1 hs.2] at derived
    obtain ⟨hopen, hstop⟩ := hs
    simp only [Channel.isShut, not_or] at hopen
    refine ⟨?_, ?_, ?_, ?_, h.halt, h.position, h.evaluates, h.armed⟩
    · rw [derived]
      split_ifs <;> simp_all
    · have hevaluates : ch.evaluation ≠ .none → ch.active = none ∧ ch.queue ≠ [] := fun he => (h.evaluates he).2
      rw [derived]
      split_ifs with ha hq he
      · have : ch.evaluation = .none := by
          by_contra hne
          simp [(hevaluates hne).1] at ha
        simp [this]
      · have : ch.evaluation = .none := by
          by_contra hne
          exact (hevaluates hne).2 (by simpa using hq)
        simp [this]
      · simp [he]
      · simp [he]
    · rw [derived]
      split_ifs <;> simp_all
    · intro hidle
      have hidle : ch.state = .idle := by tauto
      rw [derived] at hidle
      split_ifs at hidle
      simp_all

/-- The close of an event sets the state that the window gives (R3). -/
theorem Channel.MidLaw.settled {ch : Channel} (h : ch.MidLaw) : Channel.Law { ch with state := ch.derivedState } := by
  refine Channel.MidLaw.law ⟨fun hs => h.shut ?_, h.halt, h.position, h.evaluates, h.armed⟩ ch.derivedState_settled.symm
  exact hs.imp ch.isShut_settled.1 ch.stopped_settled.1

/-- The law reads of a channel its state, its window, its halt request, its armed outcome and its evaluation. -/
theorem Channel.MidLaw.congr {ch ch' : Channel} (h : ch.MidLaw) (state : ch'.state = ch.state)
    (active : ch'.active = ch.active) (queue : ch'.queue = ch.queue) (armed : ch'.armed = ch.armed)
    (evaluation : ch'.evaluation = ch.evaluation) (halt : ch'.halt = ch.halt) : ch'.MidLaw where
  shut := by simpa only [Channel.isShut, state, active, queue] using h.shut
  halt := by simpa only [halt, active, queue] using h.halt
  position := by simpa only [halt, active] using h.position
  evaluates := by simpa only [evaluation, armed, active, queue] using h.evaluates
  armed := by simpa only [queue, armed] using h.armed

/-- The active step has ended, with no halt request (R15). -/
theorem Channel.MidLaw.of_ended {ch ch' : Channel} (h : ch.MidLaw) (state : ch'.state = ch.state)
    (active : ch'.active = none) (queue : ch'.queue = ch.queue) (armed : ch'.armed = ch.armed)
    (evaluation : ch'.evaluation = ch.evaluation) (halt : ch'.halt = none) : ch'.MidLaw where
  shut := fun hs => ⟨active, queue.trans (h.shut (by simpa only [Channel.isShut, state] using hs)).2⟩
  halt := fun hh => by rw [halt] at hh; cases hh
  position := fun _ _ _ => halt
  evaluates := fun he => by
    rw [evaluation] at he
    exact ⟨armed.trans (h.evaluates he).1, active, queue ▸ (h.evaluates he).2.2⟩
  armed := by simpa only [queue, armed] using h.armed

/-- A channel with nothing in its window. -/
theorem Channel.MidLaw.of_empty {ch : Channel} (active : ch.active = none) (queue : ch.queue = []) (halt : ch.halt = none)
    (evaluation : ch.evaluation = .none) (armed : ch.armed = .none) : ch.MidLaw where
  shut := fun _ => ⟨active, queue⟩
  halt := fun hh => by rw [halt] at hh; cases hh
  position := fun _ _ _ => halt
  evaluates := fun he => absurd evaluation he
  armed := fun _ => armed

theorem Channel.MidLaw.evaluation_none {ch : Channel} (h : ch.MidLaw) (armed : ch.armed ≠ .good) : ch.evaluation = .none := by
  by_contra hne
  exact armed (h.evaluates hne).1

theorem Channel.MidLaw.evaluation_none_of_empty {ch : Channel} (h : ch.MidLaw) (empty : ch.queue = []) :
    ch.evaluation = .none :=
  h.evaluation_none (by rw [h.armed empty]; nofun)

theorem Channel.not_stopped_of_steps {ch : Channel} (h : ch.noSteps = false) : ¬ (ch.isShut ∨ ch.state = .stopped) := by
  obtain ⟨hc, hs, hsub, -⟩ := Channel.noSteps_eq_false.1 h
  simp [Channel.isShut, hc, hs, hsub]

theorem Channel.halt_of_steps {ch : Channel} (h : ch.noSteps = false) : ch.halt = none :=
  (Channel.noSteps_eq_false.1 h).2.2.2

/-- A change of a channel that arms and starts steps, where its window's law is known. -/
theorem Channel.MidLaw.of_steps {ch ch' : Channel} (steps : ch.noSteps = false) (state : ch'.state = ch.state)
    (halt : ch'.halt = ch.halt)
    (evaluates : ch'.evaluation ≠ .none → ch'.armed = .good ∧ ch'.active = none ∧ ch'.queue ≠ [])
    (armed : ch'.queue = [] → ch'.armed = .none) : ch'.MidLaw where
  shut := fun hs => absurd (by simpa only [Channel.isShut, state] using hs) (Channel.not_stopped_of_steps steps)
  halt := fun hh => by rw [halt, Channel.halt_of_steps steps] at hh; cases hh
  position := fun _ _ _ => halt.trans (Channel.halt_of_steps steps)
  evaluates := evaluates
  armed := armed

theorem UnitView.Act.midLaw {x : UnitContext} {u v : UnitView} (hact : u.Act x v) (h : u.ch.MidLaw) : v.ch.MidLaw := by
  cases hact with
  | offers body =>
    obtain ⟨_, _, _, hv⟩ := u.offerCapture_frame x body
    rw [hv]
    exact h.congr rfl rfl rfl rfl rfl rfl
  | ends e counter phase status running free =>
    obtain ⟨_, _, _, hv⟩ := UnitView.endActive_ch x status false { u with ch := u.ch.at counter phase }
    have hnone : u.ch.halt = none := free.elim id (h.position e running)
    rw [hv]
    exact h.of_ended rfl rfl rfl rfl rfl hnone
  | halts hr counter phase forced asked =>
    have hempty : u.ch.queue = [] := asked.elim (fun hh => (h.halt (by simp [hh])).2) fun ha => ha.2.1
    obtain ⟨w, _, _, _, -, hw, hv | hv⟩ := UnitView.endHalted_eq x forced
      (u := { u with ch := { u.ch.at counter phase with halt := some hr } }) rfl
    · rw [hv, hw]
      exact .of_empty rfl hempty rfl (h.evaluation_none_of_empty hempty) (h.armed hempty)
    · rw [hv]
      exact .of_empty (by simp [UnitView.closeNow, hw]) rfl rfl rfl rfl
  | requests e hr running kind flushed =>
    exact { shut := h.shut
            halt := fun _ => ⟨by simp [running], flushed⟩
            position := fun e' he' hk => by
              rw [running] at he'
              cases he'
              rw [hk] at kind
              cases kind
            evaluates := h.evaluates
            armed := h.armed }
  | flushes =>
    exact { shut := fun hs => ⟨(h.shut hs).1, rfl⟩
            halt := fun hh => ⟨(h.halt hh).1, rfl⟩
            position := h.position
            evaluates := fun he => absurd rfl he
            armed := fun _ => rfl }
  | composes d =>
    obtain ⟨_, _, _, hv⟩ := u.compose_ch x d
    rw [hv]
    exact h.congr rfl rfl rfl rfl rfl rfl
  | stops told shut idle empty => exact .of_empty idle empty rfl (h.evaluation_none_of_empty empty) (h.armed empty)
  | closes stopped => exact .of_empty (h.shut (.inr stopped)).1 rfl rfl rfl rfl
  | arms e rest steps head fresh =>
    obtain ⟨_, hv, -⟩ := u.arm_ch x e
    rw [hv]
    exact .of_steps steps rfl rfl (fun he => absurd (h.evaluation_none (by rw [fresh]; nofun)) he)
      fun hq => absurd (head ▸ hq) (List.cons_ne_nil _ _)
  | removes e rest status value time steps head armed =>
    obtain ⟨_, _, hv⟩ := u.remove_ch x e status value time
    rw [hv]
    exact .of_steps steps rfl rfl (fun he => absurd (h.evaluation_none (by rw [armed]; nofun)) he) fun _ => rfl
  | begins e rest steps head armed idle fresh =>
    have hqueue : u.ch.queue ≠ [] := by simp [head]
    obtain ⟨_, hv, -⟩ | ⟨_, hv, -⟩ := u.beginStart_ch x e
    · rw [hv]
      exact .of_steps steps rfl rfl (fun he => absurd fresh he) fun hq => absurd hq hqueue
    · rw [hv]
      exact .of_steps steps rfl rfl (fun _ => ⟨armed, idle, hqueue⟩) fun hq => absurd hq hqueue
  | holds late armed =>
    exact { shut := h.shut, halt := h.halt, position := h.position
            evaluates := fun he => absurd (h.evaluation_none (by rw [armed]; nofun)) he
            armed := fun hq => absurd (armed.symm.trans (h.armed hq)) nofun }
  | starts e rest late held steps => exact .of_steps steps rfl rfl (fun he => absurd rfl he) fun _ => rfl
  | wakes waits =>
    obtain ⟨-, hidle, hqueue⟩ := h.evaluates waits
    exact { shut := h.shut, halt := h.halt, position := h.position
            evaluates := fun he => absurd rfl he
            armed := fun hq => absurd hq hqueue }
  | timesOut e rest waits head =>
    obtain ⟨-, hidle, hqueue⟩ := h.evaluates waits
    exact { shut := h.shut, halt := h.halt, position := h.position
            evaluates := fun he => absurd rfl he
            armed := fun hq => absurd hq hqueue }
  | reports d =>
    obtain ⟨_, _, hv⟩ := u.stage_ch d
    exact h.congr (by simp [hv]) (by simp [hv]) (by simp [hv]) (by simp [hv]) (by simp [hv]) (by simp [hv])
  | tallies | zeroes | stales => exact h.congr rfl rfl rfl rfl rfl rfl

theorem UnitView.Runs.midLaw {x : UnitContext} {u v : UnitView} (hruns : u.Runs x v) (h : u.ch.MidLaw) : v.ch.MidLaw :=
  hruns.keeps (P := fun w => w.ch.MidLaw) (fun _ _ => Act.midLaw) h

end Sys2Proof.Machine
end

section
/-! PROOF. Pairs and line claims at a channel unit (R85, R89, R95, R96): no act of a unit makes a channel SUBORDINATE or
touches a SUBORDINATE one, and only a close changes owners, which it releases. -/

namespace Sys2Proof.Machine

/-! ### Owners of lines -/

theorem updateLine_getElem (l : Vector LineEntry 16) (line : Option LineId) (f : LineEntry → LineEntry) (i : LineId) :
    (updateLine l line f)[i] = if line = some i then f l[i] else l[i] := by
  cases line with
  | none => simp [updateLine]
  | some j =>
    by_cases h : j = i
    · subst h
      simp [updateLine]
    · have hv : j.val ≠ i.val := fun hv => h (Fin.ext hv)
      simp [updateLine, h, hv]

@[simp] theorem setDrives_owner (l : Vector LineEntry 16) (ch : Channel) (b a : Drive) (i : LineId) :
    (setDrives l ch b a)[i].owner = l[i].owner := by
  rw [setDrives, updateLine_getElem, updateLine_getElem]
  split_ifs <;> rfl

@[simp] theorem driveLines_owner (l : Vector LineEntry 16) (ch : Channel) (i : LineId) :
    (driveLines l ch)[i].owner = l[i].owner := by
  unfold driveLines
  split
  · rfl
  · split
    · exact setDrives_owner ..
    · rfl

theorem UnitView.admitted_lines (u : UnitView) (slot : SlotKind) (d : Draft) : (u.admitted slot d).lines = u.lines := by
  obtain ⟨-, h⟩ | ⟨q, -, h⟩ := u.admitted_cases slot d <;> rw [h]

theorem UnitView.endActive_owner (x : UnitContext) (status : DoneStatus) (forced : Bool) (u : UnitView) (i : LineId) :
    (u.endActive x status forced).lines[i].owner = u.lines[i].owner := by
  unfold UnitView.endActive
  split
  · rfl
  · simp only [UnitView.offerDone, UnitView.admitted_lines]
    split
    · exact setDrives_owner ..
    · rfl

/-- A close releases the lines that the channel owns and claims, and no owner changes otherwise (R89). -/
theorem UnitView.closeNow_owner (x : UnitContext) (u : UnitView) (i : LineId) {c : ChanId}
    (owner : (u.closeNow x).lines[i].owner = some c) :
    u.lines[i].owner = some c ∧ (c = x.id → u.ch.bLine ≠ some i ∧ u.ch.aLine ≠ some i) := by
  have release : ∀ l : LineEntry, (l.release x.id).owner = some c → l.owner = some c ∧ c ≠ x.id := by
    intro l hl
    unfold LineEntry.release at hl
    split at hl
    · cases hl
    next hne => exact ⟨hl, fun hc => hne (hc ▸ hl)⟩
  simp only [UnitView.closeNow, updateLine_getElem] at owner
  by_cases hb : u.ch.bLine = some i <;> by_cases ha : u.ch.aLine = some i <;> simp only [hb, ha, if_true, if_false] at owner
  · obtain ⟨howner, hne⟩ := release _ owner
    exact ⟨(release _ howner).1, fun hc => absurd hc hne⟩
  · obtain ⟨howner, hne⟩ := release _ owner
    exact ⟨howner, fun hc => absurd hc hne⟩
  · obtain ⟨howner, hne⟩ := release _ owner
    exact ⟨howner, fun hc => absurd hc hne⟩
  · exact ⟨owner, fun _ => ⟨hb, ha⟩⟩

/-- What an act leaves of a channel's claims: all of them, and no owner changes; or the channel closes. -/
def UnitView.KeepsClaims (x : UnitContext) (u v : UnitView) : Prop :=
  ((v.ch.cls = u.ch.cls ∧ v.ch.bLine = u.ch.bLine ∧ v.ch.aLine = u.ch.aLine)
      ∧ (v.ch.state = u.ch.state ∨ v.ch.state = .stopped ∧ ¬ u.ch.isShut) ∧ ∀ i : LineId, v.lines[i].owner = u.lines[i].owner)
    ∨ v.ch.state = .closed ∧ ¬ u.ch.isShut ∧ v.ch.bLine = none
      ∧ ∀ (i : LineId) (c : ChanId), v.lines[i].owner = some c →
        u.lines[i].owner = some c ∧ (c = x.id → u.ch.bLine ≠ some i ∧ u.ch.aLine ≠ some i)

theorem UnitView.KeepsClaims.of_frame {x : UnitContext} {u v : UnitView} (cls : v.ch.cls = u.ch.cls)
    (bLine : v.ch.bLine = u.ch.bLine) (aLine : v.ch.aLine = u.ch.aLine) (state : v.ch.state = u.ch.state)
    (lines : v.lines = u.lines) : u.KeepsClaims x v :=
  .inl ⟨⟨cls, bLine, aLine⟩, .inl state, fun i => by rw [lines]⟩

theorem UnitView.Act.keepsClaims {x : UnitContext} {u v : UnitView} (hact : u.Act x v) (h : u.ch.MidLaw) :
    u.KeepsClaims x v := by
  cases hact with
  | offers body =>
    obtain ⟨_, _, _, hv⟩ := u.offerCapture_frame x body
    rw [hv]
    exact .of_frame rfl rfl rfl rfl rfl
  | ends e counter phase status =>
    obtain ⟨_, _, _, hv⟩ := UnitView.endActive_ch x status false { u with ch := u.ch.at counter phase }
    exact .inl ⟨by rw [hv]; exact ⟨rfl, rfl, rfl⟩, .inl (by rw [hv]; rfl),
      fun i => UnitView.endActive_owner x status false { u with ch := u.ch.at counter phase } i⟩
  | halts hr counter phase forced asked =>
    have hactive : u.ch.active.isSome = true := asked.elim (fun hh => (h.halt (by simp [hh])).1) fun ha => ha.1
    have hopen : ¬ u.ch.isShut := fun hs => by
      rw [(h.shut (.inl hs)).1] at hactive
      cases hactive
    have howner := UnitView.endActive_owner x .halted forced { u with ch := { u.ch.at counter phase with halt := some hr } }
    obtain ⟨w, _, _, _, hlines, hw, hv | hv⟩ := UnitView.endHalted_eq x forced
      (u := { u with ch := { u.ch.at counter phase with halt := some hr } }) rfl
    · rw [hv]
      exact .inl ⟨by rw [hw]; exact ⟨rfl, rfl, rfl⟩, .inr ⟨by rw [hw], hopen⟩, fun i => by rw [hlines]; exact howner i⟩
    · rw [hv]
      refine .inr ⟨rfl, hopen, rfl, fun i c hc => ?_⟩
      obtain ⟨hown, hline⟩ := w.closeNow_owner x i hc
      rw [hlines] at hown
      rw [hw] at hline
      exact ⟨(howner i).symm.trans hown, hline⟩
  | composes d =>
    obtain ⟨_, _, _, hv⟩ := u.compose_ch x d
    refine .of_frame (by rw [hv]) (by rw [hv]) (by rw [hv]) (by rw [hv]) ?_
    unfold UnitView.compose
    split
    · exact UnitView.admitted_lines ..
    · rfl
  | stops told shut => exact .inl ⟨⟨rfl, rfl, rfl⟩, .inr ⟨rfl, shut⟩, fun _ => rfl⟩
  | closes stopped =>
    exact .inr ⟨rfl, by simp [Channel.isShut, stopped], rfl, fun i c hc => u.closeNow_owner x i hc⟩
  | arms e =>
    obtain ⟨_, hv, -⟩ := u.arm_ch x e
    refine .of_frame (by rw [hv]) (by rw [hv]) (by rw [hv]) (by rw [hv]) ?_
    unfold UnitView.arm
    split <;> rfl
  | removes e rest status value time =>
    obtain ⟨_, _, hv⟩ := u.remove_ch x e status value time
    exact .of_frame (by rw [hv]) (by rw [hv]) (by rw [hv]) (by rw [hv]) (UnitView.admitted_lines ..)
  | begins e =>
    have hlines : (u.beginStart x e).lines = u.lines := by
      unfold UnitView.beginStart UnitView.beginAtTime
      dsimp only
      split_ifs <;> rfl
    obtain ⟨_, hv, -⟩ | ⟨_, hv, -⟩ := u.beginStart_ch x e <;>
      exact .of_frame (by rw [hv]) (by rw [hv]) (by rw [hv]) (by rw [hv]) hlines
  | starts e rest late held =>
    exact .inl ⟨⟨rfl, rfl, rfl⟩, .inl rfl, fun i => driveLines_owner ..⟩
  | reports d =>
    obtain ⟨_, _, hv⟩ := u.stage_ch d
    exact .of_frame (by simp [hv]) (by simp [hv]) (by simp [hv]) (by simp [hv]) (UnitView.admitted_lines ..)
  | tallies | zeroes | requests | flushes | stales | holds | wakes | timesOut =>
    exact .of_frame rfl rfl rfl rfl rfl

/-! ### SUBORDINATE channels -/

/-- A SUBORDINATE channel holds the values of R1 but for the fetcher's flags (R95, R96). -/
abbrev Channel.isBlank (ch : Channel) : Prop := ch = ch.blank .subordinate

/-- No act of a unit moves a SUBORDINATE channel but for its stale mark (R96). -/
theorem UnitView.Act.subordinate {x : UnitContext} {u v : UnitView} (hact : u.Act x v) (hb : u.ch.isBlank) :
    v.ch.isBlank := by
  have hstate : u.ch.state = .subordinate := by rw [hb]; rfl
  have hshut : u.ch.isShut := .inr hstate
  have hidle : u.ch.active = none := by rw [hb]; rfl
  have hhalt : u.ch.halt = none := by rw [hb]; rfl
  have harmed : u.ch.armed = .none := by rw [hb]; rfl
  have heval : u.ch.evaluation = .none := by rw [hb]; rfl
  have hpending : u.ch.pendingReport = none := by rw [hb]; rfl
  have hbound : u.ch.bound = none := by rw [hb]; rfl
  cases hact with
  | tallies t mark running => rw [hidle] at running; cases running
  | offers body running => rw [hidle] at running; cases running
  | zeroes counted running => rw [hidle] at running; cases running
  | ends e counter phase status running => rw [hidle] at running; cases running
  | halts hr counter phase forced asked =>
    obtain hh | ⟨ha, -⟩ := asked
    · rw [hhalt] at hh
      cases hh
    · rw [hidle] at ha
      cases ha
  | requests e hr running => rw [hidle] at running; cases running
  | flushes =>
    change u.ch.flushed.isBlank
    rw [Channel.isBlank, hb]
    rfl
  | composes d shut => exact absurd hshut shut
  | stops told shut => exact absurd hshut shut
  | closes stopped => rw [hstate] at stopped; cases stopped
  | stales =>
    change Channel.isBlank { u.ch with stale := _ }
    generalize (u.ch.stale || u.ch.fetchInFlight) = stale
    rw [Channel.isBlank, hb]
    rfl
  | arms e rest steps => exact absurd hshut (Channel.not_isShut_of_steps steps)
  | removes e rest status value time steps => exact absurd hshut (Channel.not_isShut_of_steps steps)
  | begins e rest steps => exact absurd hshut (Channel.not_isShut_of_steps steps)
  | holds late armed => rw [harmed] at armed; cases armed
  | starts e rest late held steps => exact absurd hshut (Channel.not_isShut_of_steps steps)
  | wakes waits => exact absurd heval waits
  | timesOut e rest waits => exact absurd heval waits
  | reports d pending => rw [hpending] at pending; cases pending

theorem UnitView.fetched_isBlank {u : UnitView} (hb : u.ch.isBlank) : (u.fetched false).ch.isBlank := by
  simp only [UnitView.fetched, Bool.or_false]
  rw [Channel.isBlank, hb]
  rfl

/-! ### The laws of claims at a unit -/

/-- The laws of the channel, of its pair and of its claims as the unit sees them in the midst of an event: `sub` says
that the channel is SUBORDINATE, and `owners` who owned each line before the event. -/
structure UnitView.ClaimLaw (x : UnitContext) (sub : Prop) (owners : LineId → Option ChanId) (u : UnitView) : Prop where
  mid : u.ch.MidLaw
  subordinate : u.ch.state = .subordinate ↔ sub
  blank : u.ch.state = .subordinate → u.ch.isBlank
  own : ∀ i : LineId, u.lines[i].owner = some x.id →
    u.ch.cls = some .output ∧ ¬ u.ch.isShut ∧ (u.ch.bLine = some i ∨ u.ch.aLine = some i)
  others : ∀ (i : LineId) (c : ChanId), c ≠ x.id → u.lines[i].owner = some c → owners i = some c
  claims : ∀ i : LineId, u.ch.bLine = some i → u.ch.aLine ≠ some i

namespace UnitView.ClaimLaw
variable {x : UnitContext} {sub : Prop} {owners : LineId → Option ChanId} {u v : UnitView}

theorem act (hact : u.Act x v) (h : u.ClaimLaw x sub owners) : v.ClaimLaw x sub owners := by
  have hback : v.ch.state = .subordinate → u.ch.state = .subordinate := by
    intro hv
    obtain ⟨-, hs | ⟨hs, -⟩, -⟩ | ⟨hs, -⟩ := hact.keepsClaims h.mid
    · rw [← hs, hv]
    all_goals
      rw [hv] at hs
      cases hs
  have hforth : u.ch.state = .subordinate → v.ch.isBlank := fun hu => hact.subordinate (h.blank hu)
  refine ⟨hact.midLaw h.mid, ⟨fun hv => h.subordinate.1 (hback hv), fun hs => ?_⟩, fun hv => hforth (hback hv), ?_, ?_, ?_⟩
  · rw [hforth (h.subordinate.2 hs)]
    rfl
  all_goals obtain ⟨⟨hcls, hb, ha⟩, hstate, howner⟩ | ⟨hstate, hopen, hb, howner⟩ := hact.keepsClaims h.mid
  · intro i hi
    rw [howner] at hi
    obtain ⟨hout, hopen, hclaim⟩ := h.own i hi
    refine ⟨hcls.trans hout, ?_, by rwa [hb, ha]⟩
    obtain hs | ⟨hs, -⟩ := hstate
    · simpa only [Channel.isShut, hs] using hopen
    · simp [Channel.isShut, hs]
  · intro i hi
    obtain ⟨hi, hline⟩ := howner i x.id hi
    obtain ⟨hnb, hna⟩ := hline rfl
    exact absurd (h.own i hi).2.2 (by simp [hnb, hna])
  · intro i c hc hi
    exact h.others i c hc (howner i ▸ hi)
  · intro i c hc hi
    exact h.others i c hc (howner i c hi).1
  · rw [hb, ha]
    exact h.claims
  · intro i hi
    rw [hb] at hi
    cases hi

theorem runs (hruns : u.Runs x v) (h : u.ClaimLaw x sub owners) : v.ClaimLaw x sub owners :=
  hruns.keeps (P := UnitView.ClaimLaw x sub owners) (fun _ _ => act) h

/-- A change that the laws do not depend on. -/
theorem congr (h : u.ClaimLaw x sub owners) (mid : v.ch.MidLaw) (blank : u.ch.isBlank → v.ch.isBlank)
    (state : v.ch.state = u.ch.state) (cls : v.ch.cls = u.ch.cls) (bLine : v.ch.bLine = u.ch.bLine)
    (aLine : v.ch.aLine = u.ch.aLine) (lines : v.lines = u.lines) : v.ClaimLaw x sub owners where
  mid := mid
  subordinate := by rw [state]; exact h.subordinate
  blank := fun hs => blank (h.blank (state ▸ hs))
  own := by simpa only [lines, cls, bLine, aLine, Channel.isShut, state] using h.own
  others := by rw [lines]; exact h.others
  claims := by rw [bLine, aLine]; exact h.claims

theorem fetched (h : u.ClaimLaw x sub owners) {fault : Bool} (open' : fault = true → ¬ u.ch.isShut) :
    (u.fetched fault).ClaimLaw x sub owners := by
  refine h.congr (h.mid.congr rfl rfl rfl rfl rfl rfl) (fun hb => ?_) rfl rfl rfl rfl rfl
  cases fault
  · exact fetched_isBlank hb
  · exact absurd (.inr (by rw [hb]; rfl)) (open' rfl)

/-- A record joins the window of a channel that takes steps (R6). -/
theorem joined (h : u.ClaimLaw x sub owners) (steps : u.ch.noSteps = false) (r : StepRecord) :
    ((u.fetched false).joined r).ClaimLaw x sub owners := by
  have hshut := Channel.not_isShut_of_steps steps
  refine h.congr (.of_steps steps rfl rfl (fun he => ?_) (by simp [UnitView.joined, UnitView.fetched]))
    (fun hb => absurd (.inr (by rw [hb]; rfl)) hshut) rfl rfl rfl rfl rfl
  obtain ⟨harmed, hidle, -⟩ := h.mid.evaluates he
  exact ⟨harmed, hidle, by simp [UnitView.joined, UnitView.fetched]⟩

/-- What the close of the event leaves (R3, R34). -/
theorem settled (h : u.ClaimLaw x sub owners) :
    u.settle.ch.Law ∧ (u.settle.ch.state = .subordinate ↔ sub)
      ∧ (u.settle.ch.state = .subordinate → u.settle.ch.isBlank)
      ∧ (∀ i : LineId, u.settle.lines[i].owner = some x.id → u.settle.ch.cls = some .output
          ∧ u.settle.ch.state ≠ .closed ∧ u.settle.ch.state ≠ .subordinate
          ∧ (u.settle.ch.bLine = some i ∨ u.settle.ch.aLine = some i))
      ∧ (∀ (i : LineId) (c : ChanId), c ≠ x.id → u.settle.lines[i].owner = some c → owners i = some c)
      ∧ ∀ i : LineId, u.settle.ch.bLine = some i → u.settle.ch.aLine ≠ some i := by
  have howner : ∀ i : LineId, u.settle.lines[i].owner = u.lines[i].owner := by
    intro i
    unfold UnitView.settle
    dsimp only
    split
    · exact setDrives_owner ..
    · rfl
  have hsub : u.settle.ch.state = .subordinate ↔ u.ch.state = .subordinate := u.ch.subordinate_settled
  refine ⟨h.mid.settled, hsub.trans h.subordinate, fun hs => ?_, fun i hi => ?_, fun i c hc hi => ?_, h.claims⟩
  · have hb := h.blank (hsub.1 hs)
    have hsettle : u.settle.ch = u.ch := by
      change ({ u.ch with state := u.ch.derivedState } : Channel) = u.ch
      rw [Channel.derivedState_of_shut (.inl (.inr (hsub.1 hs)))]
    rw [hsettle]
    exact hb
  · obtain ⟨hout, hopen, hclaim⟩ := h.own i (howner i ▸ hi)
    simp only [Channel.isShut, not_or] at hopen
    exact ⟨hout, (not_congr u.ch.closed_settled).2 hopen.1, (not_congr hsub).2 hopen.2, hclaim⟩
  · exact h.others i c hc (howner i ▸ hi)

end UnitView.ClaimLaw

end Sys2Proof.Machine
end

section
/-! PROOF. The claim law of the part (R3, R85, R93): every command keeps it, from one change of a channel context at a
time. -/

namespace Sys2Proof.Machine

theorem oddOf_injective {j j' : Fin 4} (h : oddOf j = oddOf j') : j = j' := by
  have := congrArg Fin.val h
  simp only [oddOf] at this
  exact Fin.ext (by omega)

theorem oddOf_ne_evenOf (j j' : Fin 4) : oddOf j ≠ evenOf j' := by
  intro h
  have := congrArg Fin.val h
  simp only [oddOf, evenOf] at this
  omega

/-- A channel at rest has nothing in its window. -/
theorem Channel.Law.empty_of_rest {ch : Channel} (h : ch.Law)
    (rest : ch.state = .closed ∨ ch.state = .stopped) :
    ch.active = none ∧ ch.queue = [] ∧ ch.halt = none ∧ ch.evaluation = .none ∧ ch.armed = .none := by
  have hmid := h.mid
  obtain ⟨hactive, hqueue⟩ := hmid.shut (rest.imp .inl id)
  refine ⟨hactive, hqueue, ?_, hmid.evaluation_none_of_empty hqueue, hmid.armed hqueue⟩
  by_contra hne
  have := (hmid.halt (Option.isSome_iff_ne_none.2 hne)).1
  rw [hactive] at this
  cases this

namespace Part.ClaimLaw
variable {p p' : Part}

/-- One channel context changes, with the owners of lines and its pair's entry. -/
theorem set (h : p.ClaimLaw) {c : ChanId} {ch : Channel} (chans : p'.chans = p.chans.set c ch) (law : ch.Law)
    (pairs : ∀ j : Fin 4, oddOf j ≠ c → p'.pairs[j] = p.pairs[j])
    (pair : ∀ j : Fin 4, oddOf j = c → (p'.pairs[j] = true ↔ ch.state = .subordinate))
    (even : ∀ j : Fin 4, evenOf j = c → ch.state ≠ .subordinate)
    (blank : ch.state = .subordinate → ch.isBlank)
    (own : ∀ i : LineId, p'.lines[i].owner = some c → ch.cls = some .output ∧ ch.state ≠ .closed
      ∧ ch.state ≠ .subordinate ∧ (ch.bLine = some i ∨ ch.aLine = some i))
    (others : ∀ (i : LineId) (d : ChanId), d ≠ c → p'.lines[i].owner = some d → p.lines[i].owner = some d)
    (claims : ∀ i : LineId, ch.bLine = some i → ch.aLine ≠ some i) : p'.ClaimLaw := by
  obtain ⟨hlaw, ⟨hodd, heven, hblank⟩, howner, hclaims⟩ := h
  have same : ∀ d : ChanId, d = c → p'.chans[d] = ch := by
    rintro d rfl
    simp [chans]
  have other : ∀ d : ChanId, d ≠ c → p'.chans[d] = p.chans[d] := by
    intro d hd
    have hv : c.val ≠ d.val := fun hv => hd (Fin.ext hv.symm)
    simp [chans, hv]
  refine ⟨fun d => ?_, ⟨fun j => ?_, fun j => ?_, fun d => ?_⟩, fun i d hi => ?_, fun i d => ?_⟩
  · by_cases hd : d = c
    · rwa [same d hd]
    · rw [other d hd]
      exact hlaw d
  · by_cases hd : oddOf j = c
    · rw [same _ hd]
      exact pair j hd
    · rw [other _ hd, pairs j hd]
      exact hodd j
  · by_cases hd : evenOf j = c
    · rw [same _ hd]
      exact even j hd
    · rw [other _ hd]
      exact heven j
  · by_cases hd : d = c
    · rw [same d hd]
      exact blank
    · rw [other d hd]
      exact hblank d
  · by_cases hd : d = c
    · rw [same d hd]
      exact own i (hd ▸ hi)
    · rw [other d hd]
      exact howner i d (others i d hd hi)
  · by_cases hd : d = c
    · rw [same d hd]
      exact claims i
    · rw [other d hd]
      exact hclaims i d

/-- Channels keep their states, windows and claims, pairs and owners stand. -/
theorem congr (h : p.ClaimLaw) (pairs : p'.pairs = p.pairs) (lines : ∀ i : LineId, p'.lines[i].owner = p.lines[i].owner)
    (chans : ∀ c : ChanId, p'.chans[c].Law ∧ (p.chans[c].isBlank → p'.chans[c].isBlank)
      ∧ p'.chans[c].state = p.chans[c].state ∧ p'.chans[c].cls = p.chans[c].cls
      ∧ p'.chans[c].bLine = p.chans[c].bLine ∧ p'.chans[c].aLine = p.chans[c].aLine) : p'.ClaimLaw := by
  obtain ⟨-, ⟨hodd, heven, hblank⟩, howner, hclaims⟩ := h
  refine ⟨fun c => (chans c).1, ⟨fun j => ?_, fun j => ?_, fun c hs => ?_⟩, fun i c hi => ?_, fun i c => ?_⟩
  · obtain ⟨-, -, hstate, -⟩ := chans (oddOf j)
    rw [hstate, pairs]
    exact hodd j
  · obtain ⟨-, -, hstate, -⟩ := chans (evenOf j)
    rw [hstate]
    exact heven j
  · obtain ⟨-, hb, hstate, -⟩ := chans c
    exact hb (hblank c (hstate ▸ hs))
  · obtain ⟨-, -, hstate, hcls, hb, ha⟩ := chans c
    rw [hstate, hcls, hb, ha]
    exact howner i c (lines i ▸ hi)
  · obtain ⟨-, -, -, -, hb, ha⟩ := chans c
    rw [hb, ha]
    exact hclaims i c

/-- A part with the same channels, lines and pairs. -/
theorem of_eq (h : p.ClaimLaw) (chans : p'.chans = p.chans) (lines : p'.lines = p.lines) (pairs : p'.pairs = p.pairs) :
    p'.ClaimLaw :=
  h.congr pairs (by simp [lines]) fun c => by
    rw [chans]
    exact ⟨h.1 c, id, rfl, rfl, rfl, rfl⟩

theorem view (h : p.ClaimLaw) (k : Clock) (c : ChanId) : (p.view c).ClaimLaw (p.context k c)
    (p.chans[c].state = .subordinate) (fun i => p.lines[i].owner) := by
  obtain ⟨hlaw, ⟨-, -, hblank⟩, howner, hclaims⟩ := h
  refine ⟨(hlaw c).mid, Iff.rfl, hblank c, fun i hi => ?_, fun _ _ _ => id, fun i => hclaims i c⟩
  obtain ⟨hcls, hc, hs, hclaim⟩ := howner i c hi
  exact ⟨hcls, by simpa [Channel.isShut, Part.view] using ⟨hc, hs⟩, hclaim⟩

theorem atUnit (h : p.ClaimLaw) {k : Clock} {c : ChanId} {f : UnitContext → UnitView → UnitView}
    (hf : (f (p.context k c) (p.view c)).ClaimLaw (p.context k c) (p.chans[c].state = .subordinate)
      (fun i => p.lines[i].owner)) : (p.atUnit k c f).ClaimLaw := by
  obtain ⟨hlaw, hsub, hblank, hown, hothers, hclaims⟩ := hf.settled
  obtain ⟨hodd, heven, -⟩ : p.PairLaw := h.2.1
  refine h.set (Part.atUnit_chans ..) hlaw (fun j _ => by simp) (fun j hj => ?_) (fun j hj => ?_) hblank ?_ ?_ hclaims
  · rw [Part.atUnit_pairs, hsub, ← hj]
    exact hodd j
  · rw [Ne, hsub, ← hj]
    exact heven j
  · rw [Part.atUnit_lines]
    exact hown
  · rw [Part.atUnit_lines]
    exact hothers

theorem unit (h : p.ClaimLaw) {k : Clock} {c : ChanId} {f : UnitContext → UnitView → UnitView}
    (runs : (p.view c).Runs (p.context k c) (f (p.context k c) (p.view c))) : (p.atUnit k c f).ClaimLaw :=
  h.atUnit (UnitView.ClaimLaw.runs runs (h.view k c))

/-! ### Admin commands -/

theorem finishes (h : p.ClaimLaw) (status : AdminStatus) (w : Results) : (p.complete status w).ClaimLaw :=
  h.of_eq (by simp) (by simp) (by simp)

/-- A change of a channel that keeps its state, its claims and its window (R7, R66, R99). -/
theorem setChan (h : p.ClaimLaw) {c : ChanId} {ch : Channel} (law : ch.Law) (blank : p.chans[c].isBlank → ch.isBlank)
    (state : ch.state = p.chans[c].state) (cls : ch.cls = p.chans[c].cls) (bLine : ch.bLine = p.chans[c].bLine)
    (aLine : ch.aLine = p.chans[c].aLine) : (p.setChan c ch).ClaimLaw := by
  refine h.congr rfl (fun _ => rfl) fun d => ?_
  by_cases hd : c = d
  · subst hd
    simpa using ⟨law, blank, state, cls, bLine, aLine⟩
  · have hv : c.val ≠ d.val := fun hv => hd (Fin.ext hv)
    simpa [hv] using h.1 d

/-- A channel that is CLOSED or SUBORDINATE owns no line. -/
theorem owns_none (h : p.ClaimLaw) {c : ChanId} (shut : p.chans[c].isShut) (i : LineId) : p.lines[i].owner ≠ some c := by
  intro hi
  obtain ⟨-, hclosed, hsub, -⟩ := h.2.2.1 i c hi
  exact shut.elim hclosed hsub

/-- The law of a channel whose window is empty and whose state is none that a window gives. -/
theorem law_of_empty {ch : Channel} (state : ch.state = .idle ∨ ch.state = .closed ∨ ch.state = .subordinate)
    (active : ch.active = none) (queue : ch.queue = []) (halt : ch.halt = none) (evaluation : ch.evaluation = .none)
    (armed : ch.armed = .none) : ch.Law := by
  refine (Channel.MidLaw.of_empty active queue halt evaluation armed).law ?_
  obtain hs | hs | hs := state <;> simp [Channel.derivedState, hs, active, queue]

theorem opens (h : p.ClaimLaw) {c : ChanId} {cls : ChClass} {b : LineId} {a : Option LineId} {q : RingId}
    {r : CommandRecord} (claims : claimsOf r = some (b, a)) (closed : p.chans[c].state = .closed) :
    (p.openChannel c cls b a q r).ClaimLaw := by
  have hdistinct : ∀ i, some b = some i → a ≠ some i := by
    unfold claimsOf at claims
    split at claims
    · cases claims
    next b' _ =>
      split_ifs at claims with h1 h2
      · split at claims
        · cases claims
        next a' _ =>
          split_ifs at claims with h3
          cases claims
          rintro i hb ha
          cases hb
          cases ha
          exact h3 rfl
      · cases claims
        exact fun i _ => nofun
  have hpair : ∀ j : Fin 4, oddOf j = c → (p.pairs[j] = true ↔ ChState.idle = .subordinate) := by
    intro j hj
    have hodd := h.2.1.1 j
    subst hj
    rw [closed] at hodd
    rw [hodd]
    exact ⟨nofun, nofun⟩
  have claim_owner : ∀ (l : LineEntry) (d : ChanId), (l.claim cls c).owner = some d →
      l.owner = some d ∨ cls = .output ∧ d = c := by
    intro l d hd
    cases cls
    · exact .inr ⟨rfl, (Option.some.inj hd).symm⟩
    · exact .inl hd
  have howner : ∀ (i : LineId) (d : ChanId), (p.openChannel c cls b a q r).lines[i].owner = some d →
      p.lines[i].owner = some d ∨ cls = .output ∧ d = c ∧ (some b = some i ∨ a = some i) := by
    intro i d hd
    simp only [Part.openChannel, updateLine_getElem] at hd
    by_cases hb : some b = some i <;> by_cases ha : a = some i <;> simp only [hb, ha, if_true, if_false] at hd
    · obtain hd | hd := claim_owner _ _ hd
      · exact (claim_owner _ _ hd).imp id fun hd => ⟨hd.1, hd.2, .inl hb⟩
      · exact .inr ⟨hd.1, hd.2, .inl hb⟩
    · exact (claim_owner _ _ hd).imp id fun hd => ⟨hd.1, hd.2, .inl hb⟩
    · exact (claim_owner _ _ hd).imp id fun hd => ⟨hd.1, hd.2, .inr ha⟩
    · exact .inl hd
  refine h.set rfl (law_of_empty (.inl rfl) rfl rfl rfl rfl rfl) (fun _ _ => rfl) hpair (fun _ _ => nofun) nofun
    (fun i hi => ?_) (fun i d hd hi => ?_) hdistinct
  · obtain hi | ⟨hcls, -, hline⟩ := howner i c hi
    · exact absurd hi (h.owns_none (.inl closed) i)
    · exact ⟨by rw [hcls]; rfl, nofun, nofun, hline⟩
  · obtain hi | ⟨-, hc, -⟩ := howner i d hi
    · exact hi
    · exact absurd hc hd

/-- A pair's entry changes with the state of its odd channel, which takes the values of R1 (R95, R99). -/
theorem pairs (h : p.ClaimLaw) {j : Fin 4} (joined : Bool) {state : ChState}
    (shut : p.chans[oddOf j].isShut) (new : state = if joined then .subordinate else .closed) :
    (({ p with pairs := p.pairs.set j joined } : Part).setChan (oddOf j) (p.chans[oddOf j].blank state)).ClaimLaw := by
  have hlaw : (p.chans[oddOf j].blank state).Law :=
    law_of_empty (by rw [new]; cases joined <;> simp [Channel.blank]) rfl rfl rfl rfl rfl
  refine h.set rfl hlaw (fun j' hj => ?_) (fun j' hj => ?_) (fun j' hj => absurd hj.symm (oddOf_ne_evenOf j j')) (fun hs => ?_)
    (fun i hi => absurd hi (h.owns_none shut i)) (fun _ _ _ => id) (fun i => nofun)
  · have hv : j.val ≠ j'.val := fun hv => hj (by rw [Fin.ext hv])
    simp [hv]
  · obtain rfl := oddOf_injective hj
    rw [new]
    cases joined <;> simp [Channel.blank]
  · change state = .subordinate at hs
    rw [hs]
    rfl

theorem command {k : Clock} {i : Instr} (he : p.CommandEffect k i p') (h : p.ClaimLaw) : p'.ClaimLaw := by
  cases he with
  | completes status w => exact h.finishes status w
  | createsRing | deletesRing | setsNotice =>
    refine Part.ClaimLaw.finishes ?_ _ _
    exact h.of_eq rfl rfl rfl
  | waitsOnRing => exact h.of_eq rfl rfl rfl
  | restartsRing q =>
    unfold Part.restart
    split
    · exact h
    · refine Part.ClaimLaw.finishes ?_ _ _
      exact h.of_eq rfl rfl rfl
  | opens c cls b a q r w legal inside claims closed free => exact (h.opens claims closed).finishes _ _
  | passesHalt c close boundary deadline =>
    exact Part.ClaimLaw.unit (p := p.waitOnChannel k c deadline) (h.of_eq rfl rfl rfl) (UnitView.runs_takeHalt ..)
  | closesStopped c boundary w stopped =>
    have hclosed : (p.atUnit k c fun x u => u.takeHalt x true boundary false).ClaimLaw := h.unit (UnitView.runs_takeHalt ..)
    exact hclosed.finishes _ _
  | resumes c index w stopped inside =>
    obtain ⟨hactive, hqueue, hhalt, heval, harmed⟩ := (h.1 c).empty_of_rest (.inr stopped)
    refine Part.ClaimLaw.finishes ?_ _ _
    refine h.set rfl (law_of_empty (.inl rfl) hactive hqueue hhalt heval harmed) (fun _ _ => rfl) (fun j hj => ?_)
      (fun _ _ => nofun) nofun (fun i hi => ?_) (fun _ _ _ => id) (fun i => h.2.2.2 i c)
    · have hodd := h.2.1.1 j
      subst hj
      rw [stopped] at hodd
      change p.pairs[j] = true ↔ _
      rw [hodd]
      exact ⟨nofun, nofun⟩
    · obtain ⟨hcls, -, -, hline⟩ := h.2.2.1 i c hi
      exact ⟨hcls, nofun, nofun, hline⟩
  | joins r command j w rest closed =>
    exact (h.pairs (joined := true) (.inl closed) rfl).finishes _ _
  | splits r command j w joined rest =>
    have hsub : p.chans[oddOf j].state = .subordinate := (h.2.1.1 j).1 joined
    have hsplit := h.pairs (joined := false) (state := .closed) (.inr hsub) rfl
    have heven : p.chans[evenOf j] = (({ p with pairs := p.pairs.set j false } : Part).setChan (oddOf j)
        (p.chans[oddOf j].blank .closed)).chans[evenOf j] := by
      have hv : (oddOf j).val ≠ (evenOf j).val := fun hv => oddOf_ne_evenOf j j (Fin.ext hv)
      simp [hv]
    refine Part.ClaimLaw.finishes ?_ _ _
    refine hsplit.setChan (h.1 (evenOf j)) (fun hb => ?_) ?_ ?_ ?_ ?_
    · rw [← heven] at hb
      exact absurd (by rw [hb]; rfl) (h.2.1.2.1 j)
    all_goals rw [← heven]; rfl
  | setsPosition c n w closed subordinate =>
    refine Part.ClaimLaw.finishes ?_ _ _
    refine h.setChan (h.1 c) (fun hb => ?_) rfl rfl rfl rfl
    exact absurd (by rw [hb]; rfl) subordinate
  | parks r command l level w =>
    refine Part.ClaimLaw.finishes ?_ _ _
    refine h.congr rfl (fun i => ?_) fun c => ⟨h.1 c, id, rfl, rfl, rfl, rfl⟩
    by_cases hi : l = i
    · subst hi
      simp
    · have hv : l.val ≠ i.val := fun hv => hi (Fin.ext hv)
      simp [hv]

/-! ### Every command -/

theorem grant (h : p.ClaimLaw) (tb : Ticks) : (p.grant tb).ClaimLaw := by
  refine h.congr (by simp) (by simp) fun c => ?_
  obtain hc | ⟨heligible, hc⟩ := p.grant_chans tb c
  · rw [hc]
    exact ⟨h.1 c, id, rfl, rfl, rfl, rfl⟩
  · rw [hc]
    refine ⟨h.1 c, fun hb => ?_, rfl, rfl, rfl, rfl⟩
    rw [hb] at heligible
    simp [Channel.eligible, Channel.blank] at heligible

theorem effect {known : Prop} {k : Clock} {i : Instr} (he : p.Effect known k i p') (h : p.ClaimLaw) : p'.ClaimLaw := by
  cases he with
  | chooses used => exact h.of_eq (by simp) (by simp) (by simp)
  | grants => exact h.grant k.tb
  | unit c f runs => exact h.unit runs
  | returns c fault f idle open' runs =>
    exact h.atUnit (UnitView.ClaimLaw.runs runs ((h.view k c).fetched open'))
  | joins w command c r live fresh steps =>
    exact Part.ClaimLaw.atUnit (p := p.endTransaction) (h.of_eq rfl rfl rfl)
      (UnitView.ClaimLaw.runs (UnitView.runs_handOver _) ((h.view k c).joined steps r))
  | restarts q waits present =>
    unfold Part.restart
    split
    · exact h
    · refine Part.ClaimLaw.finishes ?_ _ _
      exact h.of_eq rfl rfl rfl
  | completes status w => exact h.finishes status w
  | configures b =>
    unfold Part.configured
    split <;> exact h.of_eq rfl rfl rfl
  | commands opcode r q live effect => exact command effect (h.of_eq (p' := p.endTransaction.take opcode r) rfl rfl rfl)
  | postsTail c index valid =>
    refine h.setChan (h.1 c) (fun hb => ?_) rfl rfl rfl rfl
    rw [hb] at valid
    simp [Channel.takesTail, Channel.blank] at valid
  | restartsAdmin waiting =>
    obtain ⟨-, hd⟩ | ⟨-, -, _, hd | ⟨-, hd⟩⟩ := p.dropAdminTransaction_cases k waiting <;>
      exact h.of_eq (by rw [hd]) (by rw [hd]) (by rw [hd])
  | withdraws | ends | writes | writeFails | notices | drops | rotates | untimes | acqDone | faults | postsHead
    | postsAdminTail | postsAcqHead | registers | enables => exact h.of_eq rfl rfl rfl

theorem reset {cfgBase : Word32} {port : Port} : Part.ClaimLaw { p.afterReset cfgBase with port := port } := by
  have hchan : ∀ c : ChanId, Part.reset.chans[c] = Channel.reset := fun c => by simp [Part.reset]
  have hreset : Part.reset.ClaimLaw := by
    refine ⟨fun c => ?_, ⟨fun j => ?_, fun j => ?_, fun c hs => ?_⟩, fun i c hi => ?_, fun i c hb => ?_⟩
    · rw [hchan]
      exact law_of_empty (.inr (.inl rfl)) rfl rfl rfl rfl rfl
    · rw [hchan]
      simp [Part.reset, Channel.reset]
    · rw [hchan]
      simp [Channel.reset]
    · rw [hchan] at hs
      cases hs
    · simp [Part.reset, LineEntry.reset] at hi
    · rw [hchan] at hb
      cases hb
  exact hreset.of_eq rfl rfl rfl

theorem endTick (h : p.ClaimLaw) (k : Clock) : (p.endTick k).ClaimLaw := by
  have howner : ∀ (l : List ChanId) (lines : Vector LineEntry 16) (i : LineId),
      (l.foldl (fun v c => driveLines v (endTicks k p.chans)[c]) lines)[i].owner = lines[i].owner := by
    intro l
    induction l with
    | nil => exact fun _ _ => rfl
    | cons c l ih =>
      intro lines i
      rw [List.foldl_cons, ih, driveLines_owner]
  refine h.congr rfl (fun i => howner allChans p.lines i) fun c => ?_
  have hblank : p.chans[c].isBlank → (p.chans[c].endTick k).isBlank := by
    intro hb
    rw [hb]
    rfl
  obtain ⟨_, _, _, hc⟩ := p.chans[c].endTick_frame k
  rw [Part.endTick_chans]
  refine ⟨?_, hblank, by rw [hc], by rw [hc], by rw [hc], by rw [hc]⟩
  rw [hc]
  exact h.1 c

end Part.ClaimLaw

end Sys2Proof.Machine
end

section
/-! PROOF. The counter law (R27, R43, R46, R60, R73) under the events of a tick: an event leaves the counter, sets it to 0 or
ends the step, and a step starts at 0. -/

namespace Sys2Proof.Machine

/-! ### Interval steps that are armed GOOD -/

/-- An interval step that is validated GOOD has a top of at least 1 (R50). -/
theorem top_pos_of_validate {ch : Channel} {wide : Bool} {r : StepRecord} (good : validate ch wide r = none)
    (interval : r.isInterval = true) : 1 ≤ r.top.toNat := by
  unfold validate at good
  unfold StepRecord.isInterval at interval
  split at good
  · cases good
  next k hk =>
    rw [hk] at interval
    split_ifs at good with h1 h2 hrange
    have htop : topOutOfRange k wide r = false := by
      simp only [failsRange, Bool.or_eq_true, not_or, Bool.not_eq_true] at hrange
      exact hrange.1.1
    have hzero : (r.top == 0) = false := by
      cases k <;> simp only [Kind.isInterval, Bool.false_eq_true] at interval <;>
        exact (Bool.or_eq_false_iff.1 htop).1
    have hne : r.top ≠ 0 := by simpa using hzero
    bv_omega

/-! ### The acts of a unit -/

/-- The law reads of a channel its active step with the counter and phase, and its armed step. -/
theorem Channel.CounterLaw.congr {ch ch' : Channel} (h : ch.CounterLaw) (active : ch'.active = ch.active)
    (counter : ch'.counter = ch.counter) (phase : ch'.phase = ch.phase)
    (armed : ch'.armed.isGood = true → ch.armed.isGood = true ∧ ch'.queue.head? = ch.queue.head?) : ch'.CounterLaw := by
  refine ⟨by simpa only [active, counter, phase] using h.1, fun ha => ?_⟩
  obtain ⟨hgood, hhead⟩ := armed ha
  rw [hhead]
  exact h.2 hgood

/-- The active step has ended. -/
theorem Channel.CounterLaw.of_ended {ch ch' : Channel} (h : ch.CounterLaw) (active : ch'.active = none)
    (armed : ch'.armed.isGood = true → ch.armed.isGood = true ∧ ch'.queue.head? = ch.queue.head?) : ch'.CounterLaw := by
  refine ⟨fun e he => ?_, fun ha => ?_⟩
  · rw [active] at he
    cases he
  · obtain ⟨hgood, hhead⟩ := armed ha
    rw [hhead]
    exact h.2 hgood

theorem UnitView.Act.counterLaw {x : UnitContext} {u v : UnitView} (hact : u.Act x v) (hmid : u.ch.MidLaw)
    (h : u.ch.CounterLaw) : v.ch.CounterLaw := by
  cases hact with
  | offers body =>
    obtain ⟨_, _, _, hv⟩ := u.offerCapture_frame x body
    rw [hv]
    exact h.congr rfl rfl rfl fun ha => ⟨ha, rfl⟩
  | zeroes counted running =>
    refine ⟨fun e he => ?_, h.2⟩
    obtain ⟨-, -, hinterval⟩ := h.1 e he
    exact ⟨Nat.two_pow_pos _, Nat.zero_le _, fun hi => (Nat.zero_le _).trans_lt (hinterval hi)⟩
  | ends e counter phase status =>
    obtain ⟨_, _, _, hv⟩ := UnitView.endActive_ch x status false { u with ch := u.ch.at counter phase }
    rw [hv]
    exact h.of_ended rfl fun ha => ⟨ha, rfl⟩
  | halts hr counter phase forced asked =>
    obtain ⟨w, _, _, _, -, hw, hv | hv⟩ := UnitView.endHalted_eq x forced
      (u := { u with ch := { u.ch.at counter phase with halt := some hr } }) rfl
    · rw [hv, hw]
      exact h.of_ended rfl fun ha => ⟨ha, rfl⟩
    · rw [hv]
      exact h.of_ended (by simp [UnitView.closeNow, hw]) nofun
  | flushes => exact h.congr rfl rfl rfl nofun
  | composes d =>
    obtain ⟨_, _, _, hv⟩ := u.compose_ch x d
    rw [hv]
    exact h.congr rfl rfl rfl fun ha => ⟨ha, rfl⟩
  | closes stopped => exact h.congr rfl rfl rfl nofun
  | arms e rest steps head =>
    obtain ⟨armed, hv, hgood⟩ := u.arm_ch x e
    rw [hv]
    refine ⟨h.1, fun ha e' he' hi => ?_⟩
    rw [head] at he'
    cases he'
    exact top_pos_of_validate (hgood ha) hi
  | removes e rest status value time =>
    obtain ⟨_, _, hv⟩ := u.remove_ch x e status value time
    rw [hv]
    exact h.congr rfl rfl rfl nofun
  | begins e rest steps head armed =>
    have hgood : u.ch.armed.isGood = true := by
      rw [armed]
      rfl
    obtain ⟨_, hv, -⟩ | ⟨_, hv, -⟩ := u.beginStart_ch x e <;> rw [hv] <;>
      exact h.congr rfl rfl rfl fun _ => ⟨hgood, rfl⟩
  | holds late armed => exact h.congr rfl rfl rfl fun _ => ⟨by rw [armed]; rfl, rfl⟩
  | starts e rest late held steps head armed =>
    refine ⟨fun e' he' => ?_, nofun⟩
    cases he'
    exact ⟨Nat.two_pow_pos _, Nat.zero_le _, h.2 (by rw [armed]; rfl) e (by simp [head])⟩
  | wakes waits => exact h.congr rfl rfl rfl fun _ => ⟨by rw [(hmid.evaluates waits).1]; rfl, rfl⟩
  | timesOut => exact h.congr rfl rfl rfl nofun
  | reports d =>
    obtain ⟨_, _, hv⟩ := u.stage_ch d
    exact h.congr (by simp [hv]) (by simp [hv]) (by simp [hv]) fun ha => ⟨by simpa [hv] using ha, by simp [hv]⟩
  | tallies | requests | stops | stales => exact h.congr rfl rfl rfl fun ha => ⟨ha, rfl⟩

theorem UnitView.Runs.counterLaw {x : UnitContext} {u v : UnitView} (hruns : u.Runs x v) (hmid : u.ch.MidLaw)
    (h : u.ch.CounterLaw) : v.ch.CounterLaw :=
  (hruns.keeps (P := fun w => w.ch.MidLaw ∧ w.ch.CounterLaw)
    (fun _ _ hact hw => ⟨hact.midLaw hw.1, hact.counterLaw hw.1 hw.2⟩) ⟨hmid, h⟩).2

/-! ### The effects of a command -/

namespace Part.CounterLaw
variable {p p' : Part}

theorem of_chans (h : p.CounterLaw) (chans : p'.chans = p.chans) : p'.CounterLaw := by
  rw [Part.CounterLaw, chans]
  exact h

/-- One channel context changes. -/
theorem set (h : p.CounterLaw) {c : ChanId} {ch : Channel} (chans : p'.chans = p.chans.set c ch) (law : ch.CounterLaw) :
    p'.CounterLaw := by
  intro d
  rw [chans]
  by_cases hd : c = d
  · subst hd
    simpa using law
  · have hv : c.val ≠ d.val := fun hv => hd (Fin.ext hv)
    simpa [hv] using h d

theorem atUnit (h : p.CounterLaw) {k : Clock} {c : ChanId} {f : UnitContext → UnitView → UnitView}
    (hf : (f (p.context k c) (p.view c)).ch.CounterLaw) : (p.atUnit k c f).CounterLaw :=
  h.set (Part.atUnit_chans ..) (hf.congr rfl rfl rfl fun ha => ⟨ha, rfl⟩)

theorem unit (h : p.CounterLaw) (claims : p.ClaimLaw) {k : Clock} {c : ChanId} {f : UnitContext → UnitView → UnitView}
    (runs : (p.view c).Runs (p.context k c) (f (p.context k c) (p.view c))) : (p.atUnit k c f).CounterLaw :=
  h.atUnit (runs.counterLaw (claims.1 c).mid (h c))

theorem of_empty {ch : Channel} (active : ch.active = none) (armed : ch.armed = .none) : ch.CounterLaw := by
  refine ⟨fun e he => ?_, fun ha => ?_⟩
  · rw [active] at he
    cases he
  · rw [armed] at ha
    cases ha

theorem command {k : Clock} {i : Instr} (he : p.CommandEffect k i p') (h : p.CounterLaw) (claims : p.ClaimLaw) :
    p'.CounterLaw := by
  cases he with
  | opens => exact h.set (Part.complete_chans ..) (of_empty rfl rfl)
  | passesHalt c close boundary deadline =>
    exact Part.CounterLaw.unit (p := p.waitOnChannel k c deadline) h (claims.of_eq rfl rfl rfl) (UnitView.runs_takeHalt ..)
  | closesStopped c boundary w stopped =>
    have hclosed : (p.atUnit k c fun x u => u.takeHalt x true boundary false).CounterLaw :=
      h.unit claims (UnitView.runs_takeHalt ..)
    exact hclosed.of_chans (Part.complete_chans ..)
  | resumes c | setsPosition c =>
    exact h.set (Part.complete_chans ..) ((h c).congr rfl rfl rfl fun ha => ⟨ha, rfl⟩)
  | joins => exact h.set (Part.complete_chans ..) (of_empty rfl rfl)
  | splits r command j w joined rest =>
    have hodd : Part.CounterLaw (p.setChan (oddOf j) (p.chans[oddOf j].blank .closed)) := h.set rfl (of_empty rfl rfl)
    obtain ⟨hactive, -, -, -, harmed⟩ := (claims.1 (evenOf j)).empty_of_rest (by simpa [Channel.atRest] using rest)
    exact hodd.set (Part.complete_chans ..) (of_empty hactive harmed)
  | restartsRing q =>
    unfold Part.restart
    split
    · exact h
    · exact h.of_chans (by simp)
  | completes | createsRing | deletesRing | waitsOnRing | setsNotice | parks => exact h.of_chans (by simp)

theorem effect {known : Prop} {k : Clock} {i : Instr} (he : p.Effect known k i p') (h : p.CounterLaw)
    (claims : p.ClaimLaw) : p'.CounterLaw := by
  cases he with
  | chooses used => exact h.of_chans (by simp)
  | grants =>
    intro c
    obtain hc | ⟨-, hc⟩ := p.grant_chans k.tb c <;> rw [hc]
    · exact h c
    · exact (h c).congr rfl rfl rfl fun ha => ⟨ha, rfl⟩
  | unit c f runs => exact h.unit claims runs
  | returns c fault f idle open' runs =>
    exact h.atUnit (runs.counterLaw ((claims.1 c).mid.congr rfl rfl rfl rfl rfl rfl)
      ((h c).congr rfl rfl rfl fun ha => ⟨ha, rfl⟩))
  | joins w command c r live fresh steps =>
    have hmid := (claims.view k c).joined steps r
    refine Part.CounterLaw.atUnit (p := p.endTransaction) (h.of_chans rfl)
      ((UnitView.runs_handOver _).counterLaw hmid.mid ((h c).congr rfl rfl rfl fun ha => ⟨ha, ?_⟩))
    change (p.chans[c].queue ++ _).head? = p.chans[c].queue.head?
    cases hq : p.chans[c].queue with
    | nil =>
      have hnone := (claims.1 c).mid.armed hq
      change p.chans[c].armed.isGood = true at ha
      rw [hnone] at ha
      cases ha
    | cons => rfl
  | restarts q =>
    unfold Part.restart
    split
    · exact h
    · exact h.of_chans (by simp)
  | completes => exact h.of_chans (by simp)
  | configures b =>
    unfold Part.configured
    split <;> exact h.of_chans rfl
  | commands opcode r q live effect =>
    exact command effect (h.of_chans (p' := p.endTransaction.take opcode r) rfl)
      (claims.of_eq (p' := p.endTransaction.take opcode r) rfl rfl rfl)
  | postsTail c => exact h.set rfl ((h c).congr rfl rfl rfl fun ha => ⟨ha, rfl⟩)
  | restartsAdmin waiting =>
    obtain ⟨-, hchans⟩ := p.dropAdminTransaction_pool k waiting
    exact h.of_chans hchans
  | withdraws | ends | writes | writeFails | notices | drops | rotates | untimes | acqDone | faults | postsHead
    | postsAdminTail | postsAcqHead | registers | enables => exact h.of_chans rfl

end Part.CounterLaw

/-! ### The end of a tick -/

section
variable {ch : Channel} {e : Step}

theorem Channel.cycleEndDue_iff (h : ch.active = some e) :
    ch.cycleEndDue = true ↔ ch.running = true ∧ e.record.isOutput = true
      ∧ (ch.counted = false ∧ ch.phase + 1 = e.record.prescaled) ∧ ch.counter = e.record.top.toNat := by
  simp [Channel.cycleEndDue, Channel.runs, h, Channel.lastOfPrescaled, and_assoc]

theorem Channel.windowEndDue_iff (h : ch.active = some e) (k : Clock) :
    ch.windowEndDue k = true ↔ ch.windowEdgeDue k = false ∧ ch.running = true ∧ e.record.isKind .count = true
      ∧ (ch.counted = false ∧ ch.phase + 1 = e.record.prescaled) ∧ ch.counter = e.record.top.toNat := by
  simp [Channel.windowEndDue, Channel.runs, h, Channel.lastOfPrescaled, and_assoc]

theorem Channel.overrangeDue_iff (h : ch.active = some e) (k : Clock) :
    ch.overrangeDue k = true ↔ ch.captureEdgeDue k = false ∧ ch.running = true ∧ e.record.isInterval = true
      ∧ ch.gated k e.record = true ∧ (ch.counted = false ∧ ch.phase + 1 = e.record.prescaled)
      ∧ ch.counter + 1 = e.record.top.toNat := by
  simp [Channel.overrangeDue, Channel.runs, h, Channel.lastOfPrescaled, and_assoc]

theorem isInterval_of_gated {k : Clock} {r : StepRecord} (h : ch.gated k r = true) : r.isInterval = true := by
  unfold Channel.gated at h
  unfold StepRecord.isInterval
  cases hk : r.kindOf with
  | none => simp [hk] at h
  | some kind => cases kind <;> simp [hk, Kind.isInterval] at h ⊢

theorem not_output_of_isInterval {r : StepRecord} (h : r.isInterval = true) :
    r.isOutput = false ∧ r.isKind .count = false := by
  unfold StepRecord.isInterval at h
  unfold StepRecord.isOutput StepRecord.isKind
  cases hk : r.kindOf with
  | none => simp [hk] at h
  | some kind => cases kind <;> simp [hk, Kind.isInterval, Kind.isOutput] at h ⊢

/-- No event of channel `ch` at the end of the tick is due: no cycle end, no window end, no overrange. -/
abbrev Channel.noBoundary (ch : Channel) (k : Clock) : Prop :=
  ch.cycleEndDue = false ∧ (ch.windowEdgeDue k = false ∧ ch.windowEndDue k = false)
    ∧ ch.captureEdgeDue k = false ∧ ch.overrangeDue k = false

/-- The counter that advances at the end of a tick that no boundary is due in stays within its bounds. -/
theorem Channel.counter_below_top (he : ch.active = some e) {k : Clock} (quiet : ch.noBoundary k)
    (running : ch.running = true) (last : ch.counted = false ∧ ch.phase + 1 = e.record.prescaled)
    (kind : (e.record.isOutput = true ∨ e.record.isKind .count = true) ∨ ch.gated k e.record = true)
    (top : ch.counter ≤ e.record.top.toNat) (below : e.record.isInterval = true → ch.counter < e.record.top.toNat) :
    ch.counter + 1 ≤ e.record.top.toNat
      ∧ (e.record.isInterval = true → ch.counter + 1 < e.record.top.toNat) := by
  obtain ⟨hcycle, ⟨hedge, hwindow⟩, hcapture, hover⟩ := quiet
  obtain (hout | hcount) | hgate := kind
  · have hne : ch.counter ≠ e.record.top.toNat := fun heq => by
      rw [(Channel.cycleEndDue_iff he).2 ⟨running, hout, last, heq⟩] at hcycle
      cases hcycle
    refine ⟨by omega, fun hi => ?_⟩
    rw [(not_output_of_isInterval hi).1] at hout
    cases hout
  · have hne : ch.counter ≠ e.record.top.toNat := fun heq => by
      rw [(Channel.windowEndDue_iff he k).2 ⟨hedge, running, hcount, last, heq⟩] at hwindow
      cases hwindow
    refine ⟨by omega, fun hi => ?_⟩
    rw [(not_output_of_isInterval hi).2] at hcount
    cases hcount
  · have hi := isInterval_of_gated hgate
    have hne : ch.counter + 1 ≠ e.record.top.toNat := fun heq => by
      rw [(Channel.overrangeDue_iff he k).2 ⟨hcapture, running, hi, hgate, last, heq⟩] at hover
      cases hover
    have := below hi
    exact ⟨by omega, fun _ => by omega⟩

theorem Channel.CounterLaw.passTick (h : ch.CounterLaw) (he : ch.active = some e) {k : Clock} (quiet : ch.noBoundary k)
    (running : ch.running = true) (counted : ch.counted = false)
    (kind : (e.record.isOutput = true ∨ e.record.isKind .count = true) ∨ ch.gated k e.record = true) :
    (ch.passTick e.record).CounterLaw := by
  obtain ⟨hphase, htop, hbelow⟩ := h.1 e he
  unfold Channel.passTick
  split
  next hnext =>
    refine ⟨fun e' he' => ?_, h.2⟩
    obtain rfl : e = e' := Option.some.inj (he.symm.trans he')
    exact ⟨hnext, htop, hbelow⟩
  next hlast =>
    refine ⟨fun e' he' => ?_, h.2⟩
    obtain rfl : e = e' := Option.some.inj (he.symm.trans he')
    have hend : ch.phase + 1 = e.record.prescaled := by
      unfold StepRecord.prescaled at hlast ⊢
      omega
    exact ⟨Nat.two_pow_pos _, Channel.counter_below_top he quiet running ⟨counted, hend⟩ kind htop hbelow⟩

end

/-- A channel with no event due in the tick keeps its counter within bounds as the tick ends (R27, R46, R60). -/
theorem Channel.CounterLaw.endTick {ch : Channel} (h : ch.CounterLaw) {k : Clock} (quiet : ch.noBoundary k) :
    (ch.endTick k).CounterLaw := by
  unfold Channel.endTick
  split
  next hnone => exact h.of_ended hnone fun ha => ⟨ha, rfl⟩
  next e he =>
    dsimp only
    split
    next hmoves =>
      simp only [Bool.and_eq_true, Bool.or_eq_true, Bool.not_eq_true'] at hmoves
      obtain ⟨⟨hrunning, hcounted⟩, hkind⟩ := hmoves
      exact (h.passTick he quiet hrunning hcounted hkind).congr rfl rfl rfl fun ha => ⟨ha, rfl⟩
    · exact h.congr rfl rfl rfl fun ha => ⟨ha, rfl⟩

end Sys2Proof.Machine
end

section
/-! PROOF. TICK takes every due event (R70): each event that is due rings an alarm, taking it silences that alarm for the tick
and raises no other, and a part has no more alarms than TICK takes events. -/

namespace Sys2Proof.Machine

/-! ### The alarms of a channel -/

/-- An edge of the tick may still be taken from the active step (R72). -/
def Channel.alarmEdge (ch : Channel) : Bool := ch.running && ch.active.isSome && !ch.edgeTaken

/-- The end of the tick may still count in the active step (R27, R46, R60). -/
def Channel.alarmCount (ch : Channel) : Bool := ch.running && ch.active.isSome && !ch.counted

/-- A start condition is decided in the tick (R79, R81). -/
def Channel.alarmWait (ch : Channel) (k : Clock) : Bool := ch.atTimeDue k || ch.markTimeoutDue k

/-- Between `ch` and `ch'` no alarm has been raised. -/
structure Channel.Calms (k : Clock) (ch ch' : Channel) : Prop where
  edge : ch'.alarmEdge = true → ch.alarmEdge = true
  count : ch'.alarmCount = true → ch.alarmCount = true
  wait : ch'.alarmWait k = true → ch.alarmWait k = true

namespace Channel.Calms
variable {k : Clock} {ch ch' ch'' : Channel}

theorem refl (ch : Channel) : ch.Calms k ch := ⟨id, id, id⟩

theorem trans (h : ch.Calms k ch') (h' : ch'.Calms k ch'') : ch.Calms k ch'' :=
  ⟨fun ha => h.edge (h'.edge ha), fun ha => h.count (h'.count ha), fun ha => h.wait (h'.wait ha)⟩

/-- A change of fields that no alarm depends on. -/
theorem of_eq (active : ch'.active = ch.active) (running : ch'.running = ch.running)
    (edgeTaken : ch.edgeTaken = true → ch'.edgeTaken = true) (counted : ch.counted = true → ch'.counted = true)
    (evaluation : ch'.evaluation = ch.evaluation) : ch.Calms k ch' := by
  refine ⟨?_, ?_, ?_⟩
  · simp only [Channel.alarmEdge, active, running, Bool.and_eq_true, Bool.not_eq_true']
    exact fun h => ⟨h.1, by by_contra hn; simp [edgeTaken (by simpa using hn)] at h⟩
  · simp only [Channel.alarmCount, active, running, Bool.and_eq_true, Bool.not_eq_true']
    exact fun h => ⟨h.1, by by_contra hn; simp [counted (by simpa using hn)] at h⟩
  · simp only [Channel.alarmWait, Channel.atTimeDue, Channel.markTimeoutDue, evaluation]
    exact id

/-- The active step has ended, or has not begun to run. -/
theorem of_still (still : ch'.active = none ∨ ch'.running = false)
    (evaluation : ch'.evaluation = ch.evaluation ∨ ch'.evaluation = .none) : ch.Calms k ch' := by
  refine ⟨?_, ?_, ?_⟩
  · obtain h | h := still <;> simp [Channel.alarmEdge, h]
  · obtain h | h := still <;> simp [Channel.alarmCount, h]
  · obtain h | h := evaluation <;> simp [Channel.alarmWait, Channel.atTimeDue, Channel.markTimeoutDue, h]

/-- The evaluation has ended. -/
theorem of_decided (active : ch'.active = ch.active) (running : ch'.running = ch.running)
    (edgeTaken : ch'.edgeTaken = ch.edgeTaken) (counted : ch'.counted = ch.counted)
    (evaluation : ch'.evaluation = .none) : ch.Calms k ch' := by
  refine ⟨?_, ?_, ?_⟩
  · simp only [Channel.alarmEdge, active, running, edgeTaken, imp_self]
  · simp only [Channel.alarmCount, active, running, counted, imp_self]
  · simp [Channel.alarmWait, Channel.atTimeDue, Channel.markTimeoutDue, evaluation]

end Channel.Calms

theorem Evaluation.quietAt.alarmWait {ch : Channel} {k : Clock} (h : ch.evaluation.quietAt k.tb) :
    ch.alarmWait k = false := by
  obtain ⟨hat, hon⟩ := h
  unfold Channel.alarmWait Channel.atTimeDue Channel.markTimeoutDue
  cases he : ch.evaluation with
  | none => rfl
  | atTime target =>
    have : k.tb + 1 ≠ target := fun heq => hat (by rw [he, heq])
    simpa using this
  | onMark source expiry =>
    cases expiry with
    | none => rfl
    | some t =>
      have : k.tb ≠ t := fun heq => hon source (by rw [he, heq])
      simpa using this

theorem UnitView.Act.calms {x : UnitContext} {u v : UnitView} (hact : u.Act x v) : u.ch.Calms x.clock v.ch := by
  cases hact with
  | tallies t mark running taken => exact .of_eq rfl rfl taken id rfl
  | offers body =>
    obtain ⟨_, _, _, hv⟩ := u.offerCapture_frame x body
    rw [hv]
    exact .of_eq rfl rfl id id rfl
  | zeroes counted running kept => exact .of_eq rfl rfl id kept rfl
  | ends e counter phase status =>
    obtain ⟨_, _, _, hv⟩ := UnitView.endActive_ch x status false { u with ch := u.ch.at counter phase }
    rw [hv]
    exact .of_still (.inl rfl) (.inl rfl)
  | halts hr counter phase forced asked =>
    obtain ⟨w, _, _, _, -, hw, hv | hv⟩ := UnitView.endHalted_eq x forced
      (u := { u with ch := { u.ch.at counter phase with halt := some hr } }) rfl
    · rw [hv, hw]
      exact .of_still (.inl rfl) (.inl rfl)
    · rw [hv]
      exact .of_still (.inl (by simp [UnitView.closeNow, hw])) (.inr rfl)
  | flushes => exact .of_decided rfl rfl rfl rfl rfl
  | composes d =>
    obtain ⟨_, _, _, hv⟩ := u.compose_ch x d
    rw [hv]
    exact .of_eq rfl rfl id id rfl
  | closes => exact .of_decided rfl rfl rfl rfl rfl
  | arms e =>
    obtain ⟨_, hv, -⟩ := u.arm_ch x e
    rw [hv]
    exact .of_eq rfl rfl id id rfl
  | removes e rest status value time =>
    obtain ⟨_, _, hv⟩ := u.remove_ch x e status value time
    rw [hv]
    exact .of_eq rfl rfl id id rfl
  | begins e =>
    obtain ⟨_, hv, -⟩ | ⟨_, hv, hquiet⟩ := u.beginStart_ch x e
    · rw [hv]
      exact .of_eq rfl rfl id id rfl
    · have hwait : (u.beginStart x e).ch.alarmWait x.clock = false := by
        rw [hv]
        exact Evaluation.quietAt.alarmWait hquiet
      refine ⟨?_, ?_, fun ha => ?_⟩
      · rw [hv]
        exact id
      · rw [hv]
        exact id
      · rw [hwait] at ha
        cases ha
  | starts => exact .of_still (.inr rfl) (.inr rfl)
  | wakes | timesOut => exact .of_decided rfl rfl rfl rfl rfl
  | reports d =>
    obtain ⟨_, _, hv⟩ := u.stage_ch d
    exact .of_eq (by simp [hv]) (by simp [hv]) (by simp [hv]) (by simp [hv]) (by simp [hv])
  | requests | stops | stales | holds => exact .of_eq rfl rfl id id rfl

theorem UnitView.Runs.calms {x : UnitContext} {u v : UnitView} (hruns : u.Runs x v) : u.ch.Calms x.clock v.ch :=
  hruns.keeps (P := fun w => u.ch.Calms x.clock w.ch) (fun _ _ hact hw => hw.trans hact.calms) (.refl _)

/-! ### The alarms that an event silences -/

section
variable {x : UnitContext} {u : UnitView} {e : Step}

theorem Channel.alarmCount_of_idle {ch : Channel} (h : ch.active = none) : ch.alarmCount = false := by
  simp [Channel.alarmCount, h]

/-- A boundary counts: the step ends there, or goes on from a counter set at the event. -/
theorem UnitView.boundary_alarmCount (r : StepRecord) (natural : Option DoneStatus) {goOn : UnitView → UnitView}
    (on : (goOn u).ch.alarmCount = false) : (u.boundary x r natural goOn).ch.alarmCount = false := by
  have ends : ∀ status, (u.endAndHandOver x status).ch.alarmCount = false := by
    intro status
    obtain ⟨_, _, _, hv⟩ := u.endActive_ch x status false
    refine Bool.eq_false_iff.2 fun ha => ?_
    have hcount := (UnitView.runs_handOver (x := x) (u.endActive x status false)).calms.count ha
    rw [hv] at hcount
    simp [Channel.alarmCount] at hcount
  unfold UnitView.boundary
  split
  next hhalt =>
    obtain ⟨h, hh⟩ := Option.isSome_iff_exists.1 hhalt
    obtain ⟨w, _, _, _, -, hw, hv | hv⟩ := UnitView.endHalted_eq x false hh <;> rw [hv]
    · exact Channel.alarmCount_of_idle (by rw [hw])
    · exact Channel.alarmCount_of_idle (by simp [UnitView.closeNow, hw])
  · split
    · exact ends _
    · split
      · exact ends _
      · exact on

theorem Channel.alarmCount_of_counted {ch : Channel} (h : ch.counted = true) : ch.alarmCount = false := by
  simp [Channel.alarmCount, h]

theorem UnitView.cycleEnd_silences : (u.cycleEnd x).ch.alarmCount = false := by
  unfold UnitView.cycleEnd
  split
  next hnone => exact Channel.alarmCount_of_idle hnone
  · exact boundary_alarmCount _ _ (Channel.alarmCount_of_counted rfl)

theorem UnitView.overrange_silences : (u.overrange x).ch.alarmCount = false := by
  unfold UnitView.overrange
  split
  next hnone => exact Channel.alarmCount_of_idle hnone
  · exact boundary_alarmCount _ _ (Channel.alarmCount_of_counted rfl)

theorem UnitView.windowEnd_silences : (u.windowEnd x).ch.alarmCount = false := by
  unfold UnitView.windowEnd
  split
  next hnone => exact Channel.alarmCount_of_idle hnone
  · dsimp only
    split <;> exact boundary_alarmCount _ _ (Channel.alarmCount_of_counted rfl)

/-- A unit whose edge of the tick has been taken has it taken whatever follows. -/
theorem UnitView.Runs.alarmEdge_false {v w : UnitView} (hruns : v.Runs x w) (taken : v.ch.edgeTaken = true) :
    w.ch.alarmEdge = false :=
  Bool.eq_false_iff.2 fun ha => by
    have := hruns.calms.edge ha
    simp [Channel.alarmEdge, taken] at this

theorem Channel.alarmEdge_of_idle {ch : Channel} (h : ch.active = none) : ch.alarmEdge = false := by
  simp [Channel.alarmEdge, h]

theorem UnitView.captureEdge_silences : (u.captureEdge x).ch.alarmEdge = false := by
  unfold UnitView.captureEdge
  split
  next hnone => exact Channel.alarmEdge_of_idle hnone
  next e he =>
    have hsome : u.ch.active.isSome = true := by simp [he]
    split
    · let w : UnitView := { u with ch :=
        { u.ch.okCapture e.record u.ch.counter with counter := 0, phase := 0, edgeTaken := true } }
      have hoffered : w.Runs x (w.offerOk x e.record u.ch.counter) := runs_offerOk e.record u.ch.counter hsome
      have hactive := w.offerOk_active x e.record u.ch.counter
      have hmarked := hoffered.trans (runs_cycleMark e.record (by rw [hactive]; exact hsome))
      refine UnitView.Runs.alarmEdge_false (v := w) (hmarked.trans ?_) rfl
      exact runs_boundary_here (e := e) e.record _ _ (hactive.trans he) .refl
    · simp [Channel.alarmEdge]

theorem UnitView.windowEdge_silences : (u.windowEdge x).ch.alarmEdge = false := by
  simp [UnitView.windowEdge, Channel.alarmEdge]

theorem UnitView.countStep_silences (kind : ∀ e ∈ u.ch.active, e.record.isKind .position = true) :
    (u.countStep x).ch.alarmEdge = false := by
  unfold UnitView.countStep
  split
  next hnone => exact Channel.alarmEdge_of_idle hnone
  next e he =>
    have htaken : (u.countEdge x e.record).ch.edgeTaken = true := by
      obtain ⟨_, _, _, hv⟩ := u.countEdge_frame x e.record
      rw [hv]
    dsimp only
    split
    · exact (runs_endAndHandOver .done ((u.countEdge_ch x e.record).1.trans he) (.inr (kind e he))).alarmEdge_false htaken
    · exact UnitView.Runs.alarmEdge_false (x := x) .refl htaken

/-- A condition that is decided is not decided again in the tick: what begins then is not due. -/
theorem UnitView.Runs.alarmWait_false {v w : UnitView} (hruns : v.Runs x w) (decided : v.ch.evaluation = .none) :
    w.ch.alarmWait x.clock = false :=
  Bool.eq_false_iff.2 fun ha => by
    have := hruns.calms.wait ha
    simp [Channel.alarmWait, Channel.atTimeDue, Channel.markTimeoutDue, decided] at this

theorem UnitView.satisfied_silences : (u.satisfied x).ch.alarmWait x.clock = false :=
  (runs_handOver _).alarmWait_false rfl

theorem UnitView.markTimeout_silences (waits : u.ch.queue ≠ []) : (u.markTimeout x).ch.alarmWait x.clock = false := by
  unfold UnitView.markTimeout
  split
  next hnil => exact absurd hnil waits
  · exact (runs_handOver _).alarmWait_false rfl

end

end Sys2Proof.Machine
end

section
/-! PROOF. TICK takes every due event (R70), at the part: no event of a tick raises an alarm, each silences its own, and there
are 31. -/

namespace Sys2Proof.Machine

/-! ### The alarms of the part -/

/-- The alarm of an event of the tick: events of one channel that set its counter, or take its edge, share one. -/
def Part.alarm (p : Part) (k : Clock) : TimedEvent → Bool
  | .captureEdge c | .windowEdge c | .countStep c => p.chans[c].alarmEdge
  | .cycleEnd c | .overrange c | .windowEnd c => p.chans[c].alarmCount
  | .atTime c | .markTimeout c => p.chans[c].alarmWait k
  | .notice j => p.notices[j].timerDue k
  | .deadline => p.admin.deadlineDue k
  | .responseLimit => p.port.limitDue k

/-- Between `p` and `q` no alarm has been raised. -/
structure Part.Calms (k : Clock) (p q : Part) : Prop where
  chans : ∀ c : ChanId, p.chans[c].Calms k q.chans[c]
  notices : ∀ j : NoticeId, q.notices[j].timerDue k = true → p.notices[j].timerDue k = true
  deadline : q.admin.deadlineDue k = true → p.admin.deadlineDue k = true
  limit : q.port.limitDue k = true → p.port.limitDue k = true

namespace Part.Calms
variable {k : Clock} {p q r : Part}

theorem alarm (h : p.Calms k q) (e : TimedEvent) (ha : q.alarm k e = true) : p.alarm k e = true := by
  cases e with
  | captureEdge c | windowEdge c | countStep c => exact (h.chans c).edge ha
  | cycleEnd c | overrange c | windowEnd c => exact (h.chans c).count ha
  | atTime c | markTimeout c => exact (h.chans c).wait ha
  | notice j => exact h.notices j ha
  | deadline => exact h.deadline ha
  | responseLimit => exact h.limit ha

theorem refl (p : Part) : p.Calms k p := ⟨fun _ => .refl _, fun _ => id, id, id⟩

theorem trans (h : p.Calms k q) (h' : q.Calms k r) : p.Calms k r :=
  ⟨fun c => (h.chans c).trans (h'.chans c), fun j ha => h.notices j (h'.notices j ha),
    fun ha => h.deadline (h'.deadline ha), fun ha => h.limit (h'.limit ha)⟩

/-- A change of blocks that no alarm depends on. -/
theorem of_eq (chans : q.chans = p.chans) (notices : q.notices = p.notices) (admin : q.admin = p.admin)
    (port : q.port.current = p.port.current ∨ q.port.current = none) : p.Calms k q := by
  refine ⟨fun c => by rw [chans]; exact .refl _, fun j => by rw [notices]; exact id, by rw [admin]; exact id, ?_⟩
  obtain h | h := port <;> simp [Port.limitDue, h]

theorem completed {a b : Admin} (h : b = a ∨ ∃ e, b = a.completed e) (ha : b.deadlineDue k = true) :
    a.deadlineDue k = true := by
  obtain rfl | ⟨e, rfl⟩ := h
  · exact ha
  · simp [Admin.deadlineDue, Admin.completed] at ha

theorem complete (p : Part) (status : AdminStatus) (w : Results) : p.Calms k (p.complete status w) :=
  ⟨fun c => by rw [complete_chans]; exact .refl _, fun j => by rw [complete_notices]; exact id,
    completed (complete_admin_cases ..), by rw [complete_port]; exact id⟩

theorem noteChoice (p : Part) (used : Bool) : p.Calms k (p.noteChoice used) :=
  of_eq (by simp) (by simp) (by simp) (.inl (by simp))

theorem restart (p : Part) (r : RingId) : p.Calms k (p.restart r) := by
  unfold Part.restart
  split
  · exact .refl p
  · refine Part.Calms.trans ?_ (complete _ _ _)
    exact of_eq rfl rfl rfl (.inl rfl)

theorem begin_limitDue (p : Part) (kind : TxKind) (address : Word32) (data : Slot) :
    (p.begin k.tb kind address data).port.limitDue k = false := by
  have : responseLimit k.tb ≠ k.tb := by
    unfold responseLimit
    bv_omega
  simpa [Port.limitDue] using this

/-- A grant begins a transaction whose response limit is not the tick of the grant (R161). -/
theorem grant (p : Part) : p.Calms k (p.grant k.tb) := by
  refine ⟨fun c => ?_, by simp, ?_, ?_⟩
  · obtain hc | ⟨-, hc⟩ := p.grant_chans k.tb c <;> rw [hc]
    · exact .refl _
    · exact .of_eq rfl rfl id id rfl
  all_goals
    obtain h | ⟨-, ⟨e, -, h⟩ | ⟨_, _, _, -, h⟩ | ⟨_, -, h⟩ | ⟨-, h⟩ | ⟨-, h⟩⟩ := p.grant_cases k.tb <;> rw [h]
  · exact id
  · exact id
  · exact id
  · exact id
  · exact nofun
  · exact id
  · exact id
  all_goals exact fun ha => absurd ((begin_limitDue ..).symm.trans ha) Bool.false_ne_true

theorem atUnit {c : ChanId} {f : UnitContext → UnitView → UnitView}
    (calms : p.chans[c].Calms k (f (p.context k c) (p.view c)).ch) : p.Calms k (p.atUnit k c f) := by
  refine ⟨fun d => ?_, by simp, completed ((p.atUnit_admin_cases k c f).imp id fun h => h.2), by simp⟩
  rw [atUnit_chans]
  by_cases hd : c = d
  · subst hd
    simpa using calms.trans (.of_eq (ch' := (f (p.context k c) (p.view c)).settle.ch) rfl rfl id id rfl)
  · have hv : c.val ≠ d.val := fun hv => hd (Fin.ext hv)
    simpa [hv] using Channel.Calms.refl (k := k) p.chans[d]

theorem unit {c : ChanId} {f : UnitContext → UnitView → UnitView}
    (runs : (p.view c).Runs (p.context k c) (f (p.context k c) (p.view c))) : p.Calms k (p.atUnit k c f) :=
  atUnit runs.calms

theorem closeStep (p : Part) (before : Vector Bool 8) : p.Calms k (p.closeStep k before) :=
  closeStep_keeps (P := fun q => p.Calms k q) (fun _ used h => h.trans (noteChoice _ used)) (fun q h => h.trans (grant q))
    (fun _ _ h hc => h.trans (unit (UnitView.runs_satisfied (Channel.evaluates_of_awaitsMark hc)))) p before (.refl p)

theorem failed (p : Part) (kind : TxKind) : p.Calms k (p.failed k kind) := by
  cases kind with
  | stepRead c =>
    obtain ⟨fault, -, hruns⟩ := (p.view c).runs_readReturns_none (x := p.context k c)
    have hfetched : p.chans[c].Calms k ((p.view c).fetched fault).ch := .of_eq rfl rfl id id rfl
    exact atUnit (f := fun x u => u.readReturns x none) (hfetched.trans (UnitView.Runs.calms hruns))
  | entryWrite r part =>
    have hwrite : p.Calms k (p.writeFailed r) := of_eq rfl rfl rfl (.inl rfl)
    refine hwrite.trans ?_
    change (p.writeFailed r).Calms k ((p.writeFailed r).restartIfWaiting r)
    unfold Part.restartIfWaiting
    split
    · exact restart ..
    · exact .refl _
  | acqWrite | adminRead | configRead =>
    exact ⟨fun _ => .refl _, fun _ => id, fun ha => by simp [Part.failed, Admin.deadlineDue] at ha, id⟩

end Part.Calms

/-! ### Taking an event -/

section
variable {k : Clock} {p : Part}

theorem Part.unitEvent_calms {c : ChanId} {due : Bool} {f : UnitContext → UnitView → UnitView}
    (runs : due = true → (p.view c).Runs (p.context k c) (f (p.context k c) (p.view c))) :
    p.Calms k (p.unitEvent k c due f) := by
  obtain h | ⟨hdue, h⟩ := p.unitEvent_cases k c due f
  · rw [h]
    exact .refl p
  · rw [h]
    exact (Part.Calms.unit (runs hdue)).trans (.closeStep _ _)

/-- An alarm that a due event's unit function silences is silent as the step closes. -/
theorem Part.unitEvent_silences {c : ChanId} {due : Bool} {f : UnitContext → UnitView → UnitView} (hdue : due = true)
    {quiet : Channel → Bool} (settled : ∀ ch ch' : Channel, ch.Calms k ch' → quiet ch' = true → quiet ch = true)
    (silent : quiet (f (p.context k c) (p.view c)).ch = false) : quiet (p.unitEvent k c due f).chans[c] = false := by
  subst hdue
  have hunit : quiet (p.atUnit k c f).chans[c] = false := by
    rw [Part.atUnit_chans, Bool.eq_false_iff]
    intro ha
    rw [← Bool.not_eq_true] at silent
    exact silent (settled _ (f (p.context k c) (p.view c)).settle.ch (.of_eq rfl rfl id id rfl) (by simpa using ha))
  refine Bool.eq_false_iff.2 fun ha => ?_
  rw [← Bool.not_eq_true] at hunit
  exact hunit (settled _ _ ((Part.Calms.closeStep (p.atUnit k c f) p.marks).chans c) ha)

theorem Notice.raise_timerDue (n : Notice) : n.raise.timerDue k = false := by simp [Notice.raise, Notice.timerDue]

theorem Part.noticeExpiry_calms (p : Part) (j : NoticeId) : p.Calms k (p.noticeExpiry k j) := by
  unfold Part.noticeExpiry
  split
  · refine ⟨fun _ => .refl _, fun d ha => ?_, id, id⟩
    by_cases hd : j = d
    · subst hd
      simp [Notice.raise_timerDue] at ha
    · have hv : j.val ≠ d.val := fun hv => hd (Fin.ext hv)
      simpa [hv] using ha
  · exact .refl p

theorem Part.noticeExpiry_silences (p : Part) (j : NoticeId) : (p.noticeExpiry k j).notices[j].timerDue k = false := by
  unfold Part.noticeExpiry
  split
  · simp [Notice.raise_timerDue]
  next h => simpa using h

/-- The deadline of the part, stopped. -/
theorem Part.deadlineAt_calms (p : Part) (c : ChanId) :
    p.Calms k (p.deadlineAt k c) ∧ (p.deadlineAt k c).admin.deadlineDue k = false := by
  let p1 : Part := { p with admin := { p.admin with deadline := none } }
  have hstop : p.Calms k p1 :=
    ⟨fun _ => .refl _, fun _ => id, fun ha => by simp [p1, Admin.deadlineDue] at ha, id⟩
  have hnone : p1.admin.deadlineDue k = false := by simp [p1, Admin.deadlineDue]
  have hcalms : p1.Calms k (p.deadlineAt k c) := by
    unfold Part.deadlineAt
    dsimp only
    split
    · exact .unit (UnitView.runs_endHalted true _)
    · exact .complete ..
  refine ⟨hstop.trans hcalms, Bool.eq_false_iff.2 fun ha => ?_⟩
  rw [hcalms.deadline ha] at hnone
  cases hnone

theorem Part.deadlineExpiry_calms (p : Part) : p.Calms k (p.deadlineExpiry k) := by
  unfold Part.deadlineExpiry
  split
  · split
    · exact (p.deadlineAt_calms _).1.trans (.closeStep _ _)
    · exact .refl p
    · exact .refl p
  · exact .refl p

theorem Part.deadlineExpiry_silences (h : p.AdminLaw) (due : p.admin.deadlineDue k = true) :
    (p.deadlineExpiry k).admin.deadlineDue k = false := by
  obtain ⟨-, hdeadline⟩ := Admin.deadlineDue_iff.1 due
  obtain ⟨-, c, hc⟩ := h.1 (by rw [hdeadline]; nofun)
  unfold Part.deadlineExpiry
  rw [if_pos due, hc]
  refine Bool.eq_false_iff.2 fun ha => ?_
  have := (p.deadlineAt_calms (k := k) c).2
  rw [(Part.Calms.closeStep (p.deadlineAt k c) p.marks).deadline ha] at this
  cases this

theorem Part.ended_calms (p : Part) {handler : TxKind → Option (Part → Part)}
    (result : ∀ kind f, handler kind = some f → p.endTransaction.Calms k (f p.endTransaction)) :
    p.Calms k (p.ended k handler) := by
  have hend : p.Calms k p.endTransaction := .of_eq rfl rfl rfl (.inr rfl)
  obtain h | ⟨t, f, -, -, -, h⟩ | ⟨t, f, -, hf, -, h⟩ := p.ended_cases k handler <;> rw [h]
  · exact .refl p
  · exact hend.trans (.closeStep _ _)
  · exact (hend.trans (result t.kind f hf)).trans (.closeStep _ _)

theorem Part.limitExpiry_calms (p : Part) : p.Calms k (p.limitExpiry k) := by
  unfold Part.limitExpiry
  split
  · refine Part.Calms.trans (q := { p with port := p.port.withdraws }) (.of_eq rfl rfl rfl (.inl rfl)) ?_
    refine Part.ended_calms _ fun kind f hf => ?_
    cases hf
    exact .failed _ _
  · exact .refl p

theorem Part.limitExpiry_silences (due : p.port.limitDue k = true) : (p.limitExpiry k).port.limitDue k = false := by
  have quiet : ∀ {q r : Part}, q.port.limitDue k = false → q.Calms k r → r.port.limitDue k = false :=
    fun hq h => Bool.eq_false_iff.2 fun ha => by
      rw [h.limit ha] at hq
      cases hq
  unfold Part.limitExpiry
  rw [if_pos due]
  obtain ⟨t, ht⟩ : ∃ t, p.port.current = some t := by
    unfold Port.limitDue at due
    split at due
    next t ht => exact ⟨t, ht⟩
    · cases due
  unfold Part.ended
  simp only [Port.withdraws_current, ht]
  refine quiet ?_ (Part.Calms.closeStep _ _)
  split
  · rfl
  · exact quiet rfl (Part.Calms.failed _ _)

theorem Part.fire_calms (p : Part) (e : TimedEvent) : p.Calms k (p.fire k e) := by
  cases e with
  | captureEdge c => exact unitEvent_calms fun _ => UnitView.runs_captureEdge _
  | windowEdge c =>
    refine unitEvent_calms fun hdue => UnitView.runs_windowEdge ?_
    obtain ⟨e, he, -⟩ := Channel.active_of_runs (Bool.and_eq_true_iff.1 hdue).2
    exact Option.isSome_iff_exists.2 ⟨e, he⟩
  | countStep c =>
    refine unitEvent_calms fun hdue => UnitView.runs_countStep fun e he => ?_
    exact ((Channel.countStepDue_iff he k).1 hdue).2.2.2
  | cycleEnd c => exact unitEvent_calms fun _ => UnitView.runs_cycleEnd _
  | overrange c => exact unitEvent_calms fun _ => UnitView.runs_overrange _
  | windowEnd c => exact unitEvent_calms fun _ => UnitView.runs_windowEnd _
  | atTime c => exact unitEvent_calms fun hdue => UnitView.runs_satisfied (Channel.evaluates_of_atTimeDue hdue)
  | markTimeout c => exact unitEvent_calms fun hdue => UnitView.runs_markTimeout (Channel.evaluates_of_markTimeoutDue hdue)
  | notice j => exact p.noticeExpiry_calms j
  | deadline => exact p.deadlineExpiry_calms
  | responseLimit => exact p.limitExpiry_calms

/-- The events that are due, each by its own condition. -/
def Part.isDue (p : Part) (k : Clock) : TimedEvent → Bool
  | .captureEdge c => p.chans[c].captureEdgeDue k
  | .windowEdge c => p.chans[c].windowEdgeDue k
  | .countStep c => p.chans[c].countStepDue k
  | .cycleEnd c => p.chans[c].cycleEndDue
  | .overrange c => p.chans[c].overrangeDue k
  | .windowEnd c => p.chans[c].windowEndDue k
  | .atTime c => p.chans[c].atTimeDue k
  | .markTimeout c => p.chans[c].markTimeoutDue k
  | .notice j => p.notices[j].timerDue k
  | .deadline => p.admin.deadlineDue k
  | .responseLimit => p.port.limitDue k

theorem mem_allChans (c : ChanId) : c ∈ allChans := by
  revert c
  decide

theorem mem_allNotices (j : NoticeId) : j ∈ ([0, 1, 2, 3, 4] : List NoticeId) := by
  revert j
  decide

theorem Part.mem_due {e : TimedEvent} : e ∈ p.due k ↔ p.isDue k e = true := by
  unfold Part.due Part.dueAt
  cases e <;>
    simp only [List.mem_append, List.mem_flatMap, Part.isDue, List.mem_ite_nil_right, List.mem_singleton,
      TimedEvent.captureEdge.injEq, TimedEvent.windowEdge.injEq, TimedEvent.countStep.injEq, TimedEvent.cycleEnd.injEq,
      TimedEvent.overrange.injEq, TimedEvent.windowEnd.injEq, TimedEvent.atTime.injEq, TimedEvent.markTimeout.injEq,
      TimedEvent.notice.injEq, reduceCtorEq, and_false, or_false, false_or, exists_false, and_true] <;>
    simp only [mem_allChans, mem_allNotices, true_and, exists_eq_right']

theorem Channel.alarmEdge_iff {ch : Channel} :
    ch.alarmEdge = true ↔ ch.running = true ∧ ch.active.isSome = true ∧ ch.edgeTaken = false := by
  simp [Channel.alarmEdge, and_assoc]

theorem Channel.alarmCount_iff {ch : Channel} :
    ch.alarmCount = true ↔ ch.running = true ∧ ch.active.isSome = true ∧ ch.counted = false := by
  simp [Channel.alarmCount, and_assoc]

theorem Part.alarm_of_due {e : TimedEvent} (h : p.isDue k e = true) : p.alarm k e = true := by
  have runs : ∀ {ch : Channel} {f : StepRecord → Bool}, ch.runs f = true → ch.running = true ∧ ch.active.isSome = true
      ∧ ∃ a, ch.active = some a ∧ f a.record = true := fun hr => by
    obtain ⟨a, ha, hrun, hf⟩ := Channel.active_of_runs hr
    exact ⟨hrun, by simp [ha], a, ha, hf⟩
  cases e with
  | captureEdge c | windowEdge c =>
    obtain ⟨htaken, hr⟩ := Bool.and_eq_true_iff.1 h
    obtain ⟨hrun, hact, -⟩ := runs hr
    exact Channel.alarmEdge_iff.2 ⟨hrun, hact, by simpa using htaken⟩
  | countStep c =>
    obtain ⟨htaken, hr⟩ := Bool.and_eq_true_iff.1 h
    obtain ⟨hrun, hact, -⟩ := runs hr
    exact Channel.alarmEdge_iff.2 ⟨hrun, hact, by simpa using (Bool.and_eq_true_iff.1 htaken).1⟩
  | cycleEnd c =>
    have hr : p.chans[c].cycleEndDue = true := h
    obtain ⟨hrun, hact, a, ha, -⟩ := runs hr
    obtain ⟨-, -, ⟨hcounted, -⟩, -⟩ := (Channel.cycleEndDue_iff ha).1 h
    exact Channel.alarmCount_iff.2 ⟨hrun, hact, hcounted⟩
  | overrange c =>
    obtain ⟨hrun, hact, a, ha, -⟩ := runs (Bool.and_eq_true_iff.1 h).2
    obtain ⟨-, -, -, -, ⟨hcounted, -⟩, -⟩ := (Channel.overrangeDue_iff ha k).1 h
    exact Channel.alarmCount_iff.2 ⟨hrun, hact, hcounted⟩
  | windowEnd c =>
    obtain ⟨hrun, hact, a, ha, -⟩ := runs (Bool.and_eq_true_iff.1 h).2
    obtain ⟨-, -, -, ⟨hcounted, -⟩, -⟩ := (Channel.windowEndDue_iff ha k).1 h
    exact Channel.alarmCount_iff.2 ⟨hrun, hact, hcounted⟩
  | atTime c => exact Bool.or_eq_true_iff.2 (.inl h)
  | markTimeout c => exact Bool.or_eq_true_iff.2 (.inr h)
  | notice | deadline | responseLimit => exact h

/-- Taking a due event silences its alarm. -/
theorem Part.fire_silences {e : TimedEvent} (h : p.isDue k e = true) (claims : p.ClaimLaw) (admin : p.AdminLaw) :
    (p.fire k e).alarm k e = false := by
  have edge : ∀ ch ch' : Channel, ch.Calms k ch' → ch'.alarmEdge = true → ch.alarmEdge = true := fun _ _ h => h.edge
  have count : ∀ ch ch' : Channel, ch.Calms k ch' → ch'.alarmCount = true → ch.alarmCount = true := fun _ _ h => h.count
  have wait : ∀ ch ch' : Channel, ch.Calms k ch' → ch'.alarmWait k = true → ch.alarmWait k = true := fun _ _ h => h.wait
  cases e with
  | captureEdge c => exact unitEvent_silences h edge UnitView.captureEdge_silences
  | windowEdge c => exact unitEvent_silences h edge UnitView.windowEdge_silences
  | countStep c =>
    exact unitEvent_silences h edge (UnitView.countStep_silences fun e he => ((Channel.countStepDue_iff he k).1 h).2.2.2)
  | cycleEnd c => exact unitEvent_silences h count UnitView.cycleEnd_silences
  | overrange c => exact unitEvent_silences h count UnitView.overrange_silences
  | windowEnd c => exact unitEvent_silences h count UnitView.windowEnd_silences
  | atTime c => exact unitEvent_silences h wait (UnitView.satisfied_silences (x := p.context k c))
  | markTimeout c =>
    have hqueue := ((claims.1 c).mid.evaluates (Channel.evaluates_of_markTimeoutDue h)).2.2
    exact unitEvent_silences h wait (UnitView.markTimeout_silences (x := p.context k c) hqueue)
  | notice j => exact p.noticeExpiry_silences j
  | deadline => exact deadlineExpiry_silences admin h
  | responseLimit => exact limitExpiry_silences h

end

/-! ### Taking every due event -/

/-- One event for each alarm of the part. -/
def allAlarms : List TimedEvent :=
  allChans.map .captureEdge ++ allChans.map .cycleEnd ++ allChans.map .atTime
    ++ ([0, 1, 2, 3, 4] : List NoticeId).map .notice ++ [.deadline, .responseLimit]

/-- The event that stands for an event's alarm. -/
def TimedEvent.alarmed : TimedEvent → TimedEvent
  | .captureEdge c | .windowEdge c | .countStep c => .captureEdge c
  | .cycleEnd c | .overrange c | .windowEnd c => .cycleEnd c
  | .atTime c | .markTimeout c => .atTime c
  | .notice j => .notice j
  | .deadline => .deadline
  | .responseLimit => .responseLimit

theorem TimedEvent.alarmed_mem (e : TimedEvent) : e.alarmed ∈ allAlarms := by
  have notices : ∀ j : NoticeId, TimedEvent.notice j ∈ allAlarms := by decide
  cases e with
  | notice j => exact notices j
  | deadline | responseLimit => decide
  | captureEdge | windowEdge | countStep | cycleEnd | overrange | windowEnd | atTime | markTimeout =>
    simp [TimedEvent.alarmed, allAlarms, mem_allChans]

theorem Part.alarm_alarmed (p : Part) (k : Clock) (e : TimedEvent) : p.alarm k e.alarmed = p.alarm k e := by
  cases e <;> rfl

/-- How many alarms ring. -/
def Part.alarms (p : Part) (k : Clock) : Nat := allAlarms.countP (p.alarm k)

theorem Part.alarms_le (p : Part) (k : Clock) : p.alarms k ≤ 31 := List.countP_le_length

theorem countP_lt_countP {α : Type} {f g : α → Bool} {l : List α} {a : α} (le : ∀ b, f b = true → g b = true)
    (mem : a ∈ l) (hf : f a = false) (hg : g a = true) : l.countP f < l.countP g := by
  induction l with
  | nil => cases mem
  | cons b l ih =>
    have hle : l.countP f ≤ l.countP g := List.countP_mono_left fun b _ => le b
    have hb : (if f b = true then 1 else 0) ≤ (if g b = true then 1 else 0) := by
      split_ifs with h1 h2
      · exact Nat.le_refl _
      · exact absurd (le b h1) h2
      all_goals exact Nat.zero_le _
    rw [List.countP_cons, List.countP_cons]
    obtain rfl | hmem := List.mem_cons.1 mem
    · simp only [hf, hg]
      simpa using Nat.lt_succ_of_le hle
    · exact Nat.add_lt_add_of_lt_of_le (ih hmem) hb

theorem Part.alarms_fire {p : Part} {k : Clock} {e : TimedEvent} (used : Bool) (h : e ∈ p.due k) (claims : p.ClaimLaw)
    (admin : p.AdminLaw) : ((p.noteChoice used).fire k e).alarms k < p.alarms k := by
  have hdue : (p.noteChoice used).isDue k e = true := by
    rw [← Part.mem_due.1 h]
    cases e <;> simp [Part.isDue]
  have hcalms := (Part.Calms.noteChoice (k := k) p used).trans ((p.noteChoice used).fire_calms e)
  refine countP_lt_countP (a := e.alarmed) hcalms.alarm e.alarmed_mem ?_ ?_
  · rw [Part.alarm_alarmed]
    exact Part.fire_silences hdue (claims.of_eq (by simp) (by simp) (by simp))
      (admin.congr (by simp) (.inl (by simp)) (by simp) (by simp) fun _ hc => .inl (by simpa using hc))
  · rw [Part.alarm_alarmed]
    exact Part.alarm_of_due (Part.mem_due.1 h)

/-- Everything the choice among several events can be: the first whose order does not matter, or the one that the open
choice names (R107, log entry 1). -/
theorem chooseNext_cons_cons {α : Type} (f : α → Bool) (n : Nat) (a b : α) (rest : List α) :
    ∃ x used, chooseNext f n (a :: b :: rest) = some (x, used) ∧ x ∈ a :: b :: rest := by
  change ∃ x used, (match (a :: b :: rest).find? f with
    | some x => some (x, false)
    | none => some ((a :: b :: rest).getD (Config.firstTaken n % (rest.length + 2)) a, true)) = some (x, used) ∧ _
  cases hfind : (a :: b :: rest).find? f with
  | some x => exact ⟨x, false, rfl, List.mem_of_find?_eq_some hfind⟩
  | none =>
    have hlt : Config.firstTaken n % (rest.length + 2) < (a :: b :: rest).length := Nat.mod_lt _ (Nat.succ_pos _)
    refine ⟨_, true, rfl, ?_⟩
    rw [List.getD_eq_getElem _ _ hlt]
    exact List.getElem_mem _

theorem chooseNext_eq_none {α : Type} {f : α → Bool} {n : Nat} {l : List α} : chooseNext f n l = none ↔ l = [] := by
  match l with
  | [] => simp [chooseNext]
  | [a] => simp [chooseNext]
  | a :: b :: rest =>
    obtain ⟨x, used, h, -⟩ := chooseNext_cons_cons f n a b rest
    simp [h]

/-- The chosen event is one of those offered. -/
theorem mem_of_chooseNext {α : Type} {f : α → Bool} {n : Nat} {l : List α} {a : α} {used : Bool}
    (h : chooseNext f n l = some (a, used)) : a ∈ l := by
  match l with
  | [] => cases h
  | [b] =>
    cases h
    exact List.mem_singleton_self _
  | b :: c :: rest =>
    obtain ⟨x, used', hx, hmem⟩ := chooseNext_cons_cons f n b c rest
    rw [hx] at h
    cases h
    exact hmem

section
variable {k : Clock}

/-- The laws of claims and of the admin unit hold as the events of a tick are taken. -/
theorem Part.laws_fire {p : Part} (used : Bool) (e : TimedEvent) (claims : p.ClaimLaw) (admin : p.AdminLaw) :
    ((p.noteChoice used).fire k e).ClaimLaw ∧ ((p.noteChoice used).fire k e).AdminLaw := by
  have heffects : p.Effects False k .reset ((p.noteChoice used).fire k e) :=
    (Part.Effect.chooses used).effects.trans (Part.effects_fire _ e)
  exact ⟨heffects.keeps (fun _ _ => Part.ClaimLaw.effect) claims, heffects.keeps (fun _ _ => Part.AdminLaw.effect) admin⟩

/-- With as much fuel as alarms ring, no event is left due. -/
theorem Part.takeDue_quiet : ∀ (fuel : Nat) (p : Part), p.ClaimLaw → p.AdminLaw → p.alarms k ≤ fuel →
    (Part.takeDue k fuel p).due k = [] := by
  intro fuel
  induction fuel with
  | zero =>
    intro p _ _ hle
    refine List.eq_nil_iff_forall_not_mem.2 fun e he => ?_
    have halarm := Part.alarm_of_due (Part.mem_due.1 he)
    rw [← Part.alarm_alarmed] at halarm
    exact List.countP_eq_zero.1 (Nat.le_zero.1 hle) e.alarmed e.alarmed_mem halarm
  | succ fuel ih =>
    intro p claims admin hle
    unfold Part.takeDue
    split
    next h => exact chooseNext_eq_none.1 h
    next e used h =>
      obtain ⟨hclaims, hadmin⟩ := Part.laws_fire (k := k) used e claims admin
      exact ih _ hclaims hadmin (Nat.le_of_lt_succ
        ((Part.alarms_fire used (mem_of_chooseNext h) claims admin).trans_le hle))

/-- More fuel than alarms makes no difference. -/
theorem Part.takeDue_fuel {fuel : Nat} : ∀ {p : Part} (more : Nat), p.ClaimLaw → p.AdminLaw → p.alarms k ≤ fuel →
    Part.takeDue k (fuel + more) p = Part.takeDue k fuel p := by
  induction fuel with
  | zero =>
    intro p more claims admin hle
    have hquiet : p.due k = [] := Part.takeDue_quiet 0 p claims admin hle
    rw [Part.takeDue_none hquiet, Part.takeDue_none hquiet]
  | succ fuel ih =>
    intro p more claims admin hle
    rw [Nat.succ_add]
    unfold Part.takeDue
    split
    · rfl
    next e used h =>
      obtain ⟨hclaims, hadmin⟩ := Part.laws_fire (k := k) used e claims admin
      exact ih more hclaims hadmin (Nat.le_of_lt_succ
        ((Part.alarms_fire used (mem_of_chooseNext h) claims admin).trans_le hle))

/-- TICK leaves no event due (R70, log entry 13). -/
theorem Part.takeDue_due {p : Part} (claims : p.ClaimLaw) (admin : p.AdminLaw) :
    (Part.takeDue k dueLimit p).due k = [] :=
  Part.takeDue_quiet dueLimit p claims admin ((p.alarms_le k).trans (by decide))

theorem Part.noBoundary_of_due_nil {p : Part} (h : p.due k = []) (c : ChanId) : p.chans[c].noBoundary k := by
  have quiet : ∀ e, p.isDue k e = false := fun e => by
    rw [← Bool.not_eq_true, ← Part.mem_due, h]
    exact List.not_mem_nil
  exact ⟨quiet (.cycleEnd c), ⟨quiet (.windowEdge c), quiet (.windowEnd c)⟩, quiet (.captureEdge c), quiet (.overrange c)⟩

theorem Part.CounterLaw.endTick {p : Part} (h : p.CounterLaw) (quiet : p.due k = []) : (p.endTick k).CounterLaw := by
  intro c
  rw [Part.endTick_chans]
  exact (h c).endTick (Part.noBoundary_of_due_nil quiet c)

end

/-- Settles O55: the claim law is kept by every effect of a command, by the resets and by the end of a tick; the counter law
is kept by the effects too, and by the end of a tick because TICK leaves no cycle end, window end or overrange due. -/
theorem everyCommandKeepsTheClaimLaw : Obligations.EveryCommandKeepsTheClaimLaw := by
  refine ⟨fun s t i hs h => ?_, fun s t i claims admin counters h => ?_⟩
  · exact exec_keeps (P := Part.ClaimLaw) (known := False) (fun _ _ _ _ => Part.ClaimLaw.effect)
      (fun _ _ _ _ _ => Part.ClaimLaw.reset) (fun _ k h => h.endTick k) (fun _ _ h => h.elim) hs h
  · have keeps : ∀ {p q : Part} {j : Instr}, p.Effects False s.clock j q → p.ClaimLaw ∧ p.CounterLaw →
        q.ClaimLaw ∧ q.CounterLaw := fun he hp =>
      he.keeps (P := fun r => r.ClaimLaw ∧ r.CounterLaw) (fun _ _ e hr => ⟨hr.1.effect e, hr.2.effect e hr.1⟩) hp
    have reset : ∀ {p : Part} (cfgBase : Word32) (port : Port),
        Part.CounterLaw { p.afterReset cfgBase with port := port } := fun cfgBase port c => by
      have hchan : Part.reset.chans[c] = Channel.reset := by simp [Part.reset]
      change Part.reset.chans[c].CounterLaw
      rw [hchan]
      exact Part.CounterLaw.of_empty rfl rfl
    by_cases hi : MovesByEffects i
    · exact (keeps (exec_effects h hi fun h => h.elim) ⟨claims, counters⟩).2
    · rw [not_and_or, not_and_or] at hi
      push Not at hi
      obtain ⟨pins, rfl⟩ | rfl | ⟨pins, rfl⟩ := hi
      · rw [exec_hardReset_part h]
        exact reset _ _
      · rw [exec_reset_part h]
        exact reset (p := s.part) _ s.part.port.afterReset
      · rw [exec_tick_part h]
        have htaken := keeps (s.part.effects_takeDue dueLimit (i := .tick pins)) ⟨claims, counters⟩
        exact htaken.2.endTick (Part.takeDue_due claims admin)

end Sys2Proof.Machine
end

section
/-! PROOF. The lists of the completion rings (R109, R110): every effect of a command adds entries at their ends alone, but
for the entry that ENTRY_WRITE_DONE takes from the head of one. -/

namespace Sys2Proof.Machine

/-- Every list of `p'` is the list of `p` with entries added at its end. -/
abbrev Part.Extends (p p' : Part) : Prop := ∀ q : RingId, p.pool.lists[q] <+: p'.pool.lists[q]

namespace Part.Extends
variable {p p' p'' : Part} {k : Clock}

theorem of_pool (h : p'.pool = p.pool) : p.Extends p' := fun q => by
  rw [h]

theorem trans (h : p.Extends p') (h' : p'.Extends p'') : p.Extends p'' := fun q => (h q).trans (h' q)

theorem atUnit {c : ChanId} {f : UnitContext → UnitView → UnitView} {u : UnitView} (pool : u.pool = p.pool)
    (runs : u.Runs (p.context k c) (f (p.context k c) (p.view c))) : p.Extends (p.atUnit k c f) := fun q => by
  rw [atUnit_pool, ← pool]
  exact runs.lists q

theorem command {i : Instr} (he : p.CommandEffect k i p') : p.Extends p' := by
  cases he with
  | restartsRing q => exact of_pool (p.restart_frame q).1
  | passesHalt c close boundary deadline =>
    exact atUnit (p := p.waitOnChannel k c deadline) (u := p.view c) rfl (UnitView.runs_takeHalt ..)
  | closesStopped c boundary =>
    have closed : p.Extends (p.atUnit k c fun x u => u.takeHalt x true boundary false) :=
      atUnit (u := p.view c) rfl (UnitView.runs_takeHalt ..)
    exact closed.trans (of_pool (by simp))
  | completes | createsRing | deletesRing | waitsOnRing | setsNotice | opens | resumes | joins | splits | setsPosition
    | parks => exact of_pool (by simp [openChannel])

theorem effect {known : Prop} {i : Instr} (he : p.Effect known k i p') (other : i ≠ .entryWriteDone) : p.Extends p' := by
  cases he with
  | chooses | grants | completes => exact of_pool (by simp)
  | unit c f runs => exact atUnit rfl runs
  | returns c fault f idle open' runs => exact atUnit rfl runs
  | joins w command c r =>
    exact atUnit (p := p.endTransaction) (u := ((p.view c).fetched false).joined r) rfl (UnitView.runs_handOver _)
  | drops q command => exact absurd command other
  | rotates => exact fun q => List.prefix_rfl
  | restarts q => exact of_pool (p.restart_frame q).1
  | commands opcode r q live effect => exact command (p := p.endTransaction.take opcode r) effect
  | configures b =>
    refine of_pool ?_
    unfold Part.configured
    split <;> rfl
  | restartsAdmin waiting => exact of_pool (p.dropAdminTransaction_pool k waiting).1
  | withdraws | ends | writes | writeFails | notices | untimes | acqDone | faults | postsTail | postsHead
    | postsAdminTail | postsAcqHead | registers | enables => exact of_pool rfl

theorem effects {known : Prop} {i : Instr} (h : p.Effects known k i p') (other : i ≠ .entryWriteDone) : p.Extends p' :=
  h.keeps (P := fun r => p.Extends r) (fun _ _ he hr => hr.trans (effect he other)) fun _ => List.prefix_rfl

/-- The closing of a step, which is part of every command alike. -/
theorem closeStep (p : Part) (before : Vector Bool 8) : p.Extends (p.closeStep k before) :=
  effects (known := False) (i := .enable) (p.effects_closeStep before) nofun

end Part.Extends

/-! ### The entry that a write takes (R109, R114) -/

section
variable {k : Clock}

/-- At most one entry leaves the head of the list of ring `q`, and entries join its end. -/
abbrev Part.ServesHead (p p' : Part) (q : RingId) : Prop :=
  ∃ n ≤ 1, p.pool.lists[q].drop n <+: p'.pool.lists[q]

theorem Part.Extends.servesHead {p p' : Part} (h : p.Extends p') (q : RingId) : p.ServesHead p' q :=
  ⟨0, by decide, h q⟩

theorem Part.ServesHead.extend {p p' p'' : Part} {q : RingId} (h : p.ServesHead p' q) (h' : p'.Extends p'') :
    p.ServesHead p'' q :=
  let ⟨n, hn, hp⟩ := h
  ⟨n, hn, hp.trans (h' q)⟩

theorem Pool.dropHead_lists (pool : Pool) (r q : RingId) :
    (pool.dropHead r).lists[q] = if r = q then pool.lists[q].tail else pool.lists[q] := by
  by_cases hr : r = q
  · subst hr
    simp [Pool.dropHead]
  · have hv : r.val ≠ q.val := fun hv => hr (Fin.ext hv)
    simp [Pool.dropHead, hr, hv]

theorem Part.sharedFreed_extends (p : Part) : p.Extends (p.sharedFreed k) :=
  .effects (known := False) (i := .enable) p.effects_sharedFreed nofun

theorem Part.freeHead_servesHead (p : Part) (r q : RingId) : p.ServesHead (p.freeHead k r) q := by
  have dropped : p.ServesHead { p with pool := p.pool.dropHead r } q := by
    refine ⟨if r = q then 1 else 0, by split <;> decide, ?_⟩
    rw [Pool.dropHead_lists]
    split <;> simp
  unfold Part.freeHead
  split
  · exact Extends.servesHead (Extends.of_pool rfl) q
  · dsimp only
    split
    · exact dropped.extend (sharedFreed_extends _)
    next st _ _ _ _ =>
      exact dropped.extend (.atUnit (u := Part.view { p with pool := p.pool.dropHead r } st.entry.draft.channel) rfl
        (UnitView.runs_offerAgain _))

theorem Part.entryWhole_servesHead (p : Part) (r q : RingId) : p.ServesHead (p.entryWhole k r) q := by
  unfold Part.entryWhole
  split
  · exact Extends.servesHead (Extends.of_pool rfl) q
  next st _ _ => exact (p.report (noticeOf r) k.tb st.entry.isUrgent).freeHead_servesHead r q

theorem Part.writeDone_servesHead (p : Part) (r : RingId) (part : EntryPart) (q : RingId) :
    p.ServesHead (p.writeDone k r part) q := by
  cases part with
  | single => exact (p.setRing r _).entryWhole_servesHead r q
  | stats => exact (p.setRing r _).entryWhole_servesHead r q
  | longFirst | pad => exact Extends.servesHead (Extends.of_pool rfl) q

theorem Part.restartIfWaiting_extends (p : Part) (r : RingId) : p.Extends (p.restartIfWaiting r) := by
  unfold Part.restartIfWaiting
  split
  · exact .of_pool (p.restart_frame r).1
  · exact fun _ => List.prefix_rfl

/-- What ENTRY_WRITE_DONE does to the list of ring `q`. -/
theorem exec_entryWriteDone_servesHead {s t : State} (h : exec .entryWriteDone s = .next t) (q : RingId) :
    s.part.ServesHead t.part q := by
  obtain ⟨handler, rfl, hhandler⟩ : ∃ handler : TxKind → Option (Part → Part),
      t = s.onPart (fun k p => p.answered k handler)
        ∧ ∀ kind f, handler kind = some f →
          ∃ r part, f = fun p1 => (p1.writeDone s.clock r part).restartIfWaiting r := by
    cases h
    refine ⟨_, rfl, fun kind f hf => ?_⟩
    cases kind <;> cases hf
    exact ⟨_, _, rfl⟩
  obtain ⟨used, h | ⟨-, h⟩⟩ := s.part.answered_cases s.clock handler
  · rw [State.onPart_part, h]
    have hnote : s.part.Extends (s.part.noteChoice used) := .of_pool (by simp)
    obtain h | ⟨_, f, -, -, -, h⟩ | ⟨_, f, -, hf, -, h⟩ := (s.part.noteChoice used).ended_cases s.clock handler <;>
      rw [h]
    · exact hnote.servesHead q
    · exact Part.ServesHead.extend (p' := (s.part.noteChoice used).endTransaction)
        (Part.Extends.servesHead (.of_pool (by simp)) q) (.closeStep _ _)
    · obtain ⟨r, part, rfl⟩ := hhandler _ _ hf
      obtain ⟨n, hn, hp⟩ := (s.part.noteChoice used).endTransaction.writeDone_servesHead (k := s.clock) r part q
      refine Part.ServesHead.extend ⟨n, hn, ?_⟩ ((Part.restartIfWaiting_extends _ r).trans (.closeStep _ _))
      simpa using hp
  · rw [State.onPart_part, h]
    exact Part.Extends.servesHead (.of_pool (by simp [Part.ignoreLate])) q

end

theorem Part.endTick_pool (p : Part) (k : Clock) : (p.endTick k).pool = p.pool := rfl

/-- Every command but the resets and ENTRY_WRITE_DONE adds entries at the ends of the lists alone. -/
theorem exec_extends {s t : State} {i : Instr} (h : exec i s = .next t) (hard : ∀ pins, i ≠ .hardReset pins)
    (reset : i ≠ .reset) (other : i ≠ .entryWriteDone) : s.part.Extends t.part := by
  by_cases htick : ∃ pins, i = .tick pins
  · obtain ⟨pins, rfl⟩ := htick
    rw [exec_tick_part h]
    exact (Part.Extends.effects (known := False) (i := .enable) (s.part.effects_takeDue dueLimit) nofun).trans
      (.of_pool (Part.endTick_pool ..))
  · exact .effects (known := False)
      (exec_effects h ⟨hard, reset, not_exists.1 htick⟩ nofun) other

/-- Settles O60: by the acts of the units and the effects of the commands, which only append; ENTRY_WRITE_DONE frees one
head besides. -/
theorem listsAreServedHeadFirst : Obligations.ListsAreServedHeadFirst := by
  intro s t i q h hard reset
  by_cases hi : i = .entryWriteDone
  · subst hi
    obtain ⟨n, hn, new, hnew⟩ := exec_entryWriteDone_servesHead h q
    exact ⟨n, new, hn, fun h => absurd rfl h, hnew.symm⟩
  · obtain ⟨new, hnew⟩ := exec_extends h hard reset hi q
    exact ⟨0, new, by decide, fun _ => rfl, hnew.symm⟩

end Sys2Proof.Machine
end

section
/-! PROOF. What the resets leave, what the register commands set, and the events that are not due (R164, R69, R129, R169,
log entry 12). -/

namespace Sys2Proof.Machine

/-! ### Steps and commands -/

/-- Settles O1: by the definition of a step. -/
theorem stepRunsTheFrontCommand : Obligations.StepRunsTheFrontCommand := by
  intro s c rest h
  simp only [step, h]

/-- Settles O2: every row answers a next state; the two rows that may refuse do so only for terms that are not well
formed. -/
theorem everyCommandRuns : Obligations.EveryCommandRuns := by
  refine ⟨fun c s hc => ?_, fun opcode r s h => ?_, fun register v s h => ?_, fun s h => ?_⟩
  · cases c with
    | badOpcode opcode r =>
      have hunknown : knownOpcode opcode = false := by simpa [Instr.wellFormed] using hc
      exact ⟨_, if_neg (by simp [hunknown]), rfl⟩
    | ignoredRegisterWrite register v => exact ⟨s, if_pos hc, rfl⟩
    | _ => exact ⟨_, rfl, rfl⟩
  · exact if_pos h
  · exact if_neg (by simp [h])
  · simp only [step, h]

/-! ### The resets (R164) -/

theorem Part.afterReset_interrupt (p : Part) (cfgBase : Word32) : (p.afterReset cfgBase).interrupt = false := rfl

/-- Settles O9: by the definition of device reset, block by block. -/
theorem deviceResetSetsEveryBlock : Obligations.DeviceResetSetsEveryBlock := by
  intro s
  refine ⟨s.part.afterReset s.part.device.cfgBase, rfl, ?_⟩
  simp [Part.afterReset, Part.reset, Port.afterReset, Part.interrupt, Part.anyFaulted, Ring.isFaulted, Notice.shown,
    Ring.reset, Notice.reset]

/-- Settles O10: by the definition of hard reset, block by block; the limit of the outstanding transaction is counted from
the new time base. -/
theorem hardResetSetsEveryBlock : Obligations.HardResetSetsEveryBlock := by
  intro s pins
  refine ⟨_, rfl, rfl, rfl, rfl, rfl, rfl, ?_⟩
  simp [Part.afterReset, Part.reset, samplePins]
  simp [Port.afterHardReset, Port.afterReset, Function.comp_def]
  intro tx htx hne
  exact ⟨tx, htx, by rw [rebasedLimit, if_neg hne]; abel⟩

/-- Settles O54: the reset values meet each law. -/
theorem lawsHoldAtReset : Obligations.LawsHoldAtReset := by
  have hchan : ∀ c : ChanId, State.reset.part.chans[c] = Channel.reset := fun c => by simp [State.reset, Part.reset]
  have horder : Channel.reset.OrderLaw := by decide
  refine ⟨Part.ClaimLaw.reset (p := Part.reset) (cfgBase := 0), fun c => ?_, Part.reset_stagingLaw, ?_, ?_, ?_, fun c => ?_⟩
  · rw [hchan]
    exact ⟨horder, fun hc => absurd hc (Port.not_carries_of_idle rfl _)⟩
  · exact Part.afterReset_ringLaw (p := Part.reset) (cfgBase := 0) rfl
  · exact Part.afterReset_acqLaw (p := Part.reset) (cfgBase := 0) rfl
  · exact Part.AdminLaw.of_quiet rfl rfl nofun
  · rw [hchan]
    exact Part.CounterLaw.of_empty rfl rfl

/-! ### Registers (R69, R129, R169, R174) -/

theorem Part.anyFaulted_iff (p : Part) : p.anyFaulted = true ↔ ∃ q : RingId, p.rings[q].state = .faulted := by
  simp only [Part.anyFaulted, Ring.isFaulted, Bool.or_eq_true, beq_iff_eq, Fin.exists_fin_succ, Fin.exists_fin_zero]
  simp [or_assoc]

theorem Part.interrupt_iff (p : Part) : p.interrupt = true ↔
    (∃ i : NoticeId, p.notices[i].pending = true ∧ p.notices[i].enable = true)
      ∨ (∃ q : RingId, p.rings[q].state = .faulted) ∨ p.device.state = .adminFault := by
  have hnotices : (∃ i : NoticeId, p.notices[i].pending = true ∧ p.notices[i].enable = true) ↔
      p.notices[0].shown = true ∨ p.notices[1].shown = true ∨ p.notices[2].shown = true ∨ p.notices[3].shown = true
        ∨ p.notices[4].shown = true := by
    simp only [← Notice.shown_iff]
    simp [Fin.exists_fin_succ]
  rw [hnotices, ← p.anyFaulted_iff]
  simp only [Part.interrupt, Bool.or_eq_true, beq_iff_eq, or_assoc]

theorem State.endTick_irq (s : State) (pins : BitVec 16) :
    (s.endTick pins).irq = s.part.interrupt ∧ (s.endTick pins).irq = (s.endTick pins).part.interrupt := ⟨rfl, rfl⟩

theorem exec_tbloRead_irq {s t : State} (h : exec .tbloRead s = .next t) : t.irq = s.irq := by
  cases h
  rfl

/-- Settles O15: the end of a tick shows the condition that the tick left and touches no block that the condition
reads. -/
theorem interruptLineShowsTheCondition : Obligations.InterruptLineShowsTheCondition := by
  refine ⟨Part.interrupt_iff, fun s t pins h => ?_, fun s t pins h => ?_, fun s t h => ?_, fun s t c h htick hhard => ?_⟩
  · rw [exec_tick] at h
    cases h
    exact State.endTick_irq ..
  · exact ⟨by cases h; rfl, by rw [exec_hardReset_part h]; rfl⟩
  · rw [exec_reset_part h]
    exact Part.afterReset_interrupt ..
  · by_cases hread : c = .tbloRead
    · subst hread
      exact exec_tbloRead_irq h
    · obtain ⟨p, rfl⟩ := exists_withPart_of_exec h hhard hread htick
      rfl

/-- Settles O18: the index of a command lies in its ring, so that the index past it is reached modulo the size. -/
theorem completionComposesTheEntry : Obligations.CompletionComposesTheEntry := by
  intro p c status words hcurrent hindex
  have hbump : bump c.index p.admin.ringSize = (c.index + 1) % p.admin.ringSize := by
    unfold bump
    split
    · rw [Nat.mod_eq_of_lt ‹_›]
    · rw [show c.index + 1 = p.admin.ringSize by omega, Nat.mod_self]
  rw [Part.complete_current hcurrent, hbump]

theorem Part.devstat_fields (p : Part) :
    p.devstat.extractLsb' 0 2 = p.device.state.code ∧ p.devstat.extractLsb' 2 2 = 0
      ∧ p.devstat.extractLsb' 4 4 = p.device.cause.code ∧ p.devstat.getLsbD 8 = p.device.postError
      ∧ p.devstat.extractLsb' 9 3 = 0 ∧ p.devstat.extractLsb' 12 4 = p.device.latchedId
      ∧ p.devstat.getLsbD 16 = p.anyFaulted ∧ p.devstat.extractLsb' 17 15 = 0 := by
  unfold Part.devstat
  generalize p.device.state.code = state
  generalize p.device.cause.code = cause
  generalize p.device.postError = error
  generalize p.device.latchedId = id
  generalize p.anyFaulted = faulted
  refine ⟨?_, ?_, ?_, ?_, ?_, ?_, ?_, ?_⟩ <;>
    simp [BitVec.extractLsb'_append_eq_of_le, BitVec.extractLsb'_append_eq_right, BitVec.getLsbD_append, -Nat.reduceAdd,
      -BitVec.getLsbD_eq_getElem]

theorem State.readRegister_devstat (s : State) : s.readRegister .devstat = s.part.devstat := rfl

/-- The low six bits of a CFGBASE write are discarded (R169). -/
theorem maskedBase_eq (v : Word32) : v.extractLsb' 6 26 ++ (0 : BitVec 6) = v &&& 0xFFFFFFC0 := by
  have hsplit : v.extractLsb' 6 26 ++ v.extractLsb' 0 6 = v :=
    (BitVec.extractLsb'_append_extractLsb'_eq_extractLsb' (start₁ := 0) (len₁ := 6) rfl).trans BitVec.extractLsb'_eq_self
  have hmask : (0xFFFFFFC0 : Word32) = BitVec.allOnes 26 ++ (0 : BitVec 6) := by decide
  have hzero : v.extractLsb' 0 6 &&& (0 : BitVec 6) = 0 := BitVec.and_zero
  conv_rhs => rw [← hsplit, hmask, BitVec.and_append, BitVec.and_allOnes, hzero]

/-- Settles O12: by the definitions of the rows and of the registers' words. -/
theorem registerCommandsSetTheirFields : Obligations.RegisterCommandsSetTheirFields := by
  intro s v
  obtain ⟨hstate, hzero2, hcause, herror, hzero9, hid, hfaulted, hzero17⟩ := s.part.devstat_fields
  refine ⟨rfl, ?_, ?_, ⟨acknowledgeAll s.part.notices v, rfl, fun i => ?_⟩, fun register h => if_pos h, rfl, rfl, rfl, rfl,
    ?_⟩
  · change Host.Outcome.next (s.withPart { s.part with device := s.part.device.clearPostError v }) = _
    unfold Device.clearPostError
    split <;> rfl
  · rw [← maskedBase_eq]
    rfl
  · simp [acknowledgeAll, Notice.acknowledge]
  · dsimp only
    rw [s.readRegister_devstat, hstate, hcause, hfaulted, s.part.anyFaulted_iff]
    refine ⟨by cases s.part.device.state <;> rfl, hzero2, by cases s.part.device.cause <;> rfl, herror, hzero9, hid,
      Iff.rfl, hzero17⟩

/-! ### Events that are not due (log entry 12) -/

theorem Channel.captureEdgeDue_iff {ch : Channel} {e : Step} (h : ch.active = some e) (k : Clock) :
    ch.captureEdgeDue k = true ↔ ch.edgeTaken = false ∧ ch.running = true ∧ e.record.isInterval = true
      ∧ ch.intervalEdge k e.record = true := by
  simp [Channel.captureEdgeDue, Channel.runs, h]

theorem Channel.windowEdgeDue_iff {ch : Channel} {e : Step} (h : ch.active = some e) (k : Clock) :
    ch.windowEdgeDue k = true ↔ ch.edgeTaken = false ∧ ch.running = true ∧ e.record.kindOf = some .count
      ∧ k.edgeOf e.record ch.bLine = true := by
  simp [Channel.windowEdgeDue, Channel.runs, h, StepRecord.isKind]

theorem Channel.atTimeDue_iff {ch : Channel} {k : Clock} :
    ch.atTimeDue k = true ↔ ch.evaluation = .atTime (k.tb + 1) := by
  unfold Channel.atTimeDue
  cases ch.evaluation with
  | none | onMark => simp
  | atTime target => simpa using eq_comm

theorem Channel.markTimeoutDue_iff {ch : Channel} {k : Clock} :
    ch.markTimeoutDue k = true ↔ ∃ source, ch.evaluation = .onMark source (some k.tb) := by
  unfold Channel.markTimeoutDue
  obtain _ | target | ⟨source, _ | expiry⟩ := ch.evaluation
  · simp
  · simp
  · simp
  · simpa using eq_comm

/-- Settles O53: each event's row asks first whether the event is due, and what it asks fails by the hypothesis. -/
theorem eventsNotDueChangeNothing : Obligations.EventsNotDueChangeNothing := by
  intro s c
  have still : ∀ {due : Bool} (f : UnitContext → UnitView → UnitView), ¬ due = true →
      (Host.Outcome.next (s.onPart fun k p => p.unitEvent k c due f) : Host.Outcome State Fault Refusal) = .next s := by
    intro due f h
    rw [Bool.not_eq_true] at h
    subst h
    rfl
  refine ⟨fun h => still _ fun hdue => ?_, fun h => still _ fun hdue => ?_, fun h => still _ fun hdue => ?_,
    fun h => still _ fun hdue => ?_, fun h => still _ fun hdue => ?_, fun h => still _ fun hdue => ?_,
    fun h => still _ fun hdue => ?_, fun h => still _ fun hdue => ?_, fun h => ?_⟩
  · obtain ⟨e, he, -⟩ := Channel.active_of_runs (Bool.and_eq_true_iff.1 hdue).2
    obtain ⟨htaken, hrun, hkind, hedge⟩ := (Channel.captureEdgeDue_iff he s.clock).1 hdue
    exact absurd hedge (by rw [h e he hrun htaken hkind]; decide)
  · obtain ⟨e, he, -⟩ := Channel.active_of_runs (Bool.and_eq_true_iff.1 hdue).2
    obtain ⟨htaken, hrun, hkind, hedge⟩ := (Channel.windowEdgeDue_iff he s.clock).1 hdue
    exact absurd hedge (by rw [h e he hrun htaken hkind]; decide)
  · obtain ⟨e, he, -⟩ := Channel.active_of_runs (Bool.and_eq_true_iff.1 hdue).2
    obtain ⟨htaken, hedge, hrun, hkind⟩ := (Channel.countStepDue_iff he s.clock).1 hdue
    obtain ⟨hrise, hfall⟩ := h e he hrun htaken (beq_iff_eq.1 hkind)
    exact hedge.elim (absurd · (by rw [hrise]; decide)) (absurd · (by rw [hfall]; decide))
  · obtain ⟨e, he, -⟩ := Channel.active_of_runs hdue
    obtain ⟨hrun, hkind, ⟨-, hphase⟩, hcounter⟩ := (Channel.cycleEndDue_iff he).1 hdue
    exact (h e he hrun hkind).elim (· hcounter) (· hphase)
  · obtain ⟨e, he, -⟩ := Channel.active_of_runs (Bool.and_eq_true_iff.1 hdue).2
    obtain ⟨-, hrun, hkind, hgated, ⟨-, hphase⟩, hcounter⟩ := (Channel.overrangeDue_iff he s.clock).1 hdue
    obtain hn | hn | hn := h e he hrun hkind
    · exact absurd hgated (by rw [hn]; decide)
    · exact hn hcounter
    · exact hn hphase
  · obtain ⟨e, he, -⟩ := Channel.active_of_runs (Bool.and_eq_true_iff.1 hdue).2
    obtain ⟨-, hrun, hkind, ⟨-, hphase⟩, hcounter⟩ := (Channel.windowEndDue_iff he s.clock).1 hdue
    exact (h e he hrun (beq_iff_eq.1 hkind)).elim (· hcounter) (· hphase)
  · exact h (Channel.atTimeDue_iff.1 hdue)
  · obtain ⟨source, hsource⟩ := Channel.markTimeoutDue_iff.1 hdue
    exact h source hsource
  · have hdue : s.part.admin.deadlineDue s.clock = false := by
      rw [Bool.eq_false_iff]
      intro hdue
      obtain ⟨hunit, hdeadline⟩ := Admin.deadlineDue_iff.1 hdue
      exact h.elim (· hunit) (· hdeadline)
    change Host.Outcome.next (s.withPart (s.part.deadlineExpiry s.clock)) = _
    simp only [Part.deadlineExpiry, hdue]
    rfl

end Sys2Proof.Machine
end

section
/-! PROOF. POSTs, ENABLE and RESTART_ADMIN (R165, R168, R170). -/

namespace Sys2Proof.Machine

/-- A command that changes the part and then closes its step, with no mark new on the bus, leaves the arbiter's grant
(R159). -/
theorem State.onPart_closeStep_quiet {s : State} {f : Clock → Part → Part} {p q : Part}
    (h : f s.clock s.part = p.closeStep s.clock s.part.marks) (hp : p = q) (hm : q.marks = s.part.marks) :
    (Host.Outcome.next (s.onPart f) : Host.Outcome State Fault Refusal) = .next (s.granted q) := by
  rw [← State.next_closeStep_quiet hp hm, ← h]
  rfl

/-! ### POSTs (R7, R113, R136, R139, R170) -/

theorem Channel.takesTail_iff {ch : Channel} {index : Nat} :
    ch.takesTail index = true ↔ ch.state ≠ .closed ∧ ch.state ≠ .subordinate ∧ index < ch.ringSize := by
  simp [Channel.takesTail, and_assoc]

theorem Ring.takesHead_iff {r : Ring} {index : Nat} : r.takesHead index = true ↔
    r.state ≠ .absent ∧ index < r.size ∧ (index + r.size - r.hostHead) % r.size ≤ r.outstanding := by
  simp only [Ring.takesHead, Bool.and_eq_true, bne_iff_ne, decide_eq_true_eq, and_assoc]
  rfl

theorem Device.takesAdminPost_iff {d : Device} : d.takesAdminPost = true ↔ d.state = .running ∨ d.state = .adminFault := by
  simp [Device.takesAdminPost]

theorem Admin.takesHead_iff {a : Admin} {index : Nat} : a.takesHead index = true ↔
    index < a.acqSize ∧ (index + a.acqSize - a.acqHead) % a.acqSize ≤ a.acqOutstanding := by
  simp only [Admin.takesHead, Bool.and_eq_true, decide_eq_true_eq]
  rfl

/-- Settles O16: each POST's check accepts it, and its step closes with the grant. -/
theorem validPostIsApplied : Obligations.ValidPostIsApplied := by
  intro s index
  refine ⟨fun c hclosed hsub hsize => ?_, fun q hpresent hsize hout => ?_, fun hstate hsize => ?_,
    fun hstate hsize hout => ?_⟩
  · exact State.onPart_closeStep_quiet (if_pos (Channel.takesTail_iff.2 ⟨hclosed, hsub, hsize⟩)) rfl rfl
  · exact State.onPart_closeStep_quiet (if_pos (Ring.takesHead_iff.2 ⟨hpresent, hsize, hout⟩)) rfl rfl
  · exact State.onPart_closeStep_quiet
      (if_pos (by simp [Device.takesAdminPost_iff.2 hstate, hsize])) rfl rfl
  · exact State.onPart_closeStep_quiet
      (if_pos (by simp [Device.takesAdminPost_iff.2 hstate, Admin.takesHead_iff.2 ⟨hsize, hout⟩])) rfl rfl

/-- Settles O17: each POST's check refuses it, and the id is recorded. -/
theorem invalidPostIsRecorded : Obligations.InvalidPostIsRecorded := by
  intro s index p h recorded offDuty
  have records : ∀ (id : Nat) (f : Clock → Part → Part), f s.clock s.part = s.part.postInvalid (BitVec.ofNat 4 id) →
      (Host.Outcome.next (s.onPart f) : Host.Outcome State Fault Refusal) = .next (recorded id) := by
    intro id f hf
    change Host.Outcome.next (s.withPart (f s.clock s.part)) = _
    rw [hf]
    unfold Part.postInvalid
    by_cases herror : s.part.device.postError = true <;> simp only [recorded, p, herror] <;> rfl
  have onDuty : offDuty → s.part.device.takesAdminPost = false := fun hoff => by
    rw [Bool.eq_false_iff, ne_eq, Device.takesAdminPost_iff, not_or]
    exact hoff
  refine ⟨fun c hc => ?_, fun q hq => ?_, fun ha => ?_, fun ha => ?_, ?_, ?_⟩
  · refine records c _ (if_neg ?_)
    rw [Channel.takesTail_iff]
    rintro ⟨hclosed, hsub, hsize⟩
    exact hc.elim hclosed (·.elim hsub (Nat.not_le.2 hsize))
  · refine records (8 + q) _ (if_neg ?_)
    rw [Ring.takesHead_iff]
    rintro ⟨hpresent, hsize, hout⟩
    exact hq.elim hpresent (·.elim (Nat.not_le.2 hsize) (Nat.not_lt.2 hout))
  · refine records 12 _ (if_neg ?_)
    rw [Bool.and_eq_true, decide_eq_true_iff]
    rintro ⟨hduty, hsize⟩
    exact ha.elim (fun hoff => by simp [onDuty hoff] at hduty) (Nat.not_le.2 hsize)
  · refine records 13 _ (if_neg ?_)
    rw [Bool.and_eq_true, Admin.takesHead_iff]
    rintro ⟨hduty, hsize, hout⟩
    exact ha.elim (fun hoff => by simp [onDuty hoff] at hduty) (·.elim (Nat.not_le.2 hsize) (Nat.not_lt.2 hout))
  · exact records 14 _ rfl
  · exact records 15 _ rfl

/-! ### ENABLE and RESTART_ADMIN (R165, R168) -/

theorem Port.limitDue_iff {t : Port} {tx : Transaction} (h : t.current = some tx) (k : Clock) :
    t.limitDue k = true ↔ tx.limit = k.tb := by
  simp [Port.limitDue, h]

theorem Port.carriesAdmin_iff {t : Port} {tx : Transaction} (h : t.current = some tx) :
    t.carriesAdmin = true ↔ tx.kind = .adminRead ∨ tx.kind = .acqWrite := by
  simp [Port.carriesAdmin, h]

theorem Port.endsInTick_iff {t : Port} {tx : Transaction} (h : t.current = some tx) (k : Clock) (waiting : List Instr) :
    t.endsInTick k waiting = true ↔ tx.limit = k.tb ∨ answerComes waiting tx.kind = true := by
  simp [Port.endsInTick, Port.limitDue_iff h, h]

theorem Port.endIsOpen_iff {t : Port} {tx : Transaction} (h : t.current = some tx) (k : Clock) :
    t.endIsOpen k = true ↔ tx.limit ≠ k.tb ∧ tx.kind ∈ t.withdrawn := by
  simp [Port.endIsOpen, Port.limitDue, h]

/-- The port that a restart leaves, where the admin unit's transaction has ended in the tick. -/
def Port.ended (t : Port) (kind : TxKind) : Port := { t with current := none, withdrawn := t.withdrawn ++ [kind] }

section
variable {p : Part} {k : Clock} {waiting : List Instr} {tx : Transaction}

theorem Part.dropAdminTransaction_none
    (h : (∀ t ∈ p.port.current, t.kind ≠ .adminRead ∧ t.kind ≠ .acqWrite) ∨ p.port.discard = true) :
    p.dropAdminTransaction k waiting = p := by
  refine if_neg ?_
  rw [Bool.and_eq_true, Bool.not_eq_true']
  rintro ⟨hcarries, hdiscard⟩
  obtain h | h := h
  · cases hc : p.port.current with
    | none => simp [Port.carriesAdmin, hc] at hcarries
    | some t => exact ((Port.carriesAdmin_iff hc).1 hcarries).elim (h t hc).1 (h t hc).2
  · rw [h] at hdiscard
    cases hdiscard

theorem Part.dropAdminTransaction_live (h : p.port.current = some tx) (kind : tx.kind = .adminRead ∨ tx.kind = .acqWrite)
    (live : p.port.discard = false) :
    p.dropAdminTransaction k waiting =
      if p.port.endsInTick k waiting then
        if p.port.endIsOpen k then
          (if Config.answersWithdrawn p.choices then { p with port := { p.port with discard := true } }
            else { p with port := p.port.ended tx.kind }).noteChoice true
        else { p with port := p.port.ended tx.kind }
      else { p with port := { p.port with discard := true } } := by
  have hcarries : (p.port.carriesAdmin && !p.port.discard) = true := by
    rw [(Port.carriesAdmin_iff h).2 kind, live]
    rfl
  have hdropped : ({ p.port.withdraws with current := none } : Port) = p.port.ended tx.kind := by
    simp [Port.withdraws, Port.ended, h]
  unfold Part.dropAdminTransaction
  simp only [hcarries, hdropped, if_true]

end

/-- The part that a restart leaves, but for the arbiter's grant (R168). -/
def Part.restarted (p : Part) (port : Port) (choices : Nat) : Part :=
  { p with
    admin := { p.admin with
      unit := .idle, current := none, completion := none, deadline := none, waitingOn := .nothing }
    notices := p.notices.set 4 { p.notices[4] with unnoticed := 0, timer := none }
    port := port
    device := { p.device with state := .starting, cause := .none, configGranted := false }
    choices := choices }

theorem exec_restartAdmin {s : State} {port : Port} {choices : Nat}
    (state : s.part.device.state = .running ∨ s.part.device.state = .adminFault)
    (drop : s.part.dropAdminTransaction s.clock s.pending = { s.part with port := port, choices := choices }) :
    exec .restartAdmin s = .next (s.granted (s.part.restarted port choices)) := by
  refine State.onPart_closeStep_quiet (if_pos state) ?_ rfl
  rw [drop]
  rfl

/-- Settles O11: what a restart does with the admin transaction is read off the port, its limit and the queue. -/
theorem deviceControlStartsTheDevice : Obligations.DeviceControlStartsTheDevice := by
  intro s
  refine ⟨fun h => State.onPart_closeStep_quiet (if_pos h) rfl rfl, fun h => ?_, fun state => ⟨fun h => ?_, ?_⟩, fun h => ?_⟩
  · change Host.Outcome.next (s.withPart (s.part.enable s.clock)) = _
    rw [Part.enable, if_neg h]
    rfl
  · exact exec_restartAdmin state (Part.dropAdminTransaction_none h)
  · intro t ht kind live ended answered
    have hdrop := Part.dropAdminTransaction_live (k := s.clock) (waiting := s.pending) ht kind live
    have hanswered : answerComes s.pending t.kind = true ↔ answered := answerComes_iff ..
    have hends := Port.endsInTick_iff ht s.clock s.pending
    have hopen := Port.endIsOpen_iff ht s.clock
    rw [hanswered] at hends
    refine ⟨fun h => ?_, fun hlimit hnone => ?_, fun hlimit hcomes hlate => ?_⟩
    · refine exec_restartAdmin state (hdrop.trans ?_)
      rw [if_pos (hends.2 (h.imp_right And.left)), if_neg fun ho => ?_]
      · rfl
      · obtain ⟨hne, hmem⟩ := hopen.1 ho
        exact h.elim hne fun h => h.2 hmem
    · refine exec_restartAdmin state (hdrop.trans ?_)
      rw [if_neg fun he => (hends.1 he).elim hlimit hnone]
    · rw [if_pos (hends.2 (.inr hcomes)), if_pos (hopen.2 ⟨hlimit, hlate⟩)] at hdrop
      cases hchoice : Config.answersWithdrawn s.part.choices
      · exact .inl (exec_restartAdmin state (hdrop.trans (by rw [hchoice]; rfl)))
      · exact .inr (exec_restartAdmin state (hdrop.trans (by rw [hchoice]; rfl)))
  · change Host.Outcome.next (s.withPart (s.part.restartAdmin s.clock s.pending)) = _
    rw [Part.restartAdmin, if_neg]
    · rfl
    · rintro (hs | hs) <;> rw [hs] at h <;> simp at h

end Sys2Proof.Machine
end

section
/-! PROOF. The end of a tick (R27, R68, R71, R84, R87), and what only its own commands move (R69, R91, R93, R169). -/

namespace Sys2Proof.Machine

/-! ### The drives of lines (R87) -/

/-- Setting a channel's drives changes of a line its drive alone. -/
theorem setDrives_frame (l : Vector LineEntry 16) (ch : Channel) (b a : Drive) (i : LineId) :
    ∃ d, (setDrives l ch b a)[i] = { l[i] with drive := d } := by
  rw [setDrives, updateLine_getElem, updateLine_getElem]
  split_ifs
  · exact ⟨a, rfl⟩
  · exact ⟨a, rfl⟩
  · exact ⟨b, rfl⟩
  · exact ⟨l[i].drive, rfl⟩

theorem driveLines_frame (l : Vector LineEntry 16) (ch : Channel) (i : LineId) :
    ∃ d, (driveLines l ch)[i] = { l[i] with drive := d } := by
  unfold driveLines
  split
  · exact ⟨l[i].drive, rfl⟩
  · split
    · exact setDrives_frame ..
    · exact ⟨l[i].drive, rfl⟩

/-- The channel runs an output step and claims the line. -/
def Channel.drivesLine (ch : Channel) (i : LineId) : Prop :=
  ∃ e, ch.active = some e ∧ e.record.isOutput = true ∧ (ch.bLine = some i ∨ ch.aLine = some i)

theorem driveLines_of_not_drivesLine {l : Vector LineEntry 16} {ch : Channel} {i : LineId} (h : ¬ ch.drivesLine i) :
    (driveLines l ch)[i] = l[i] := by
  unfold driveLines
  split
  · rfl
  next e he =>
    split
    next hout =>
      have hclaims : ¬ (ch.bLine = some i ∨ ch.aLine = some i) := fun hc => h ⟨e, he, hout, hc⟩
      rw [not_or] at hclaims
      rw [setDrives, updateLine_getElem, updateLine_getElem, if_neg hclaims.1, if_neg hclaims.2]
    · rfl

/-- A line that no channel of the list drives stands. -/
theorem foldl_driveLines (chans : Vector Channel 8) {i : LineId} :
    ∀ (cs : List ChanId) (l : Vector LineEntry 16), (∀ c ∈ cs, ¬ chans[c].drivesLine i) →
      (cs.foldl (fun v c => driveLines v chans[c]) l)[i] = l[i] := by
  intro cs
  induction cs with
  | nil => exact fun _ _ => rfl
  | cons c cs ih =>
    intro l h
    rw [List.foldl_cons, ih _ fun d hd => h d (List.mem_cons_of_mem _ hd),
      driveLines_of_not_drivesLine (h c (List.mem_cons_self ..))]

theorem driveAll_frame (chans : Vector Channel 8) (lines : Vector LineEntry 16) (i : LineId) :
    ∃ d, (driveAll chans lines)[i] = { lines[i] with drive := d } := by
  have hfold : ∀ (cs : List ChanId) (l : Vector LineEntry 16),
      ∃ d, (cs.foldl (fun v c => driveLines v chans[c]) l)[i] = { l[i] with drive := d } := by
    intro cs
    induction cs with
    | nil => exact fun l => ⟨l[i].drive, rfl⟩
    | cons c cs ih =>
      intro l
      obtain ⟨d, hd⟩ := ih (driveLines l chans[c])
      obtain ⟨d', hd'⟩ := driveLines_frame l chans[c] i
      exact ⟨d, by rw [List.foldl_cons, hd, hd']⟩
  exact hfold allChans lines

/-- A line that one channel alone drives takes its drive in its last tick's levels (R87). -/
theorem driveAll_alone {chans : Vector Channel 8} {lines : Vector LineEntry 16} {i : LineId} {c : ChanId}
    (alone : ∀ d : ChanId, d ≠ c → ¬ chans[d].drivesLine i) :
    ∃ l : Vector LineEntry 16, (driveAll chans lines)[i] = (driveLines l chans[c])[i] := by
  obtain ⟨before, after, hall⟩ := List.append_of_mem (mem_allChans c)
  have hnodup : (before ++ c :: after).Nodup := by
    rw [← hall]
    decide
  have hne : ∀ d ∈ after, d ≠ c := fun d hd hdc =>
    (List.nodup_cons.1 (List.Nodup.of_append_right hnodup)).1 (hdc ▸ hd)
  refine ⟨before.foldl (fun v c => driveLines v chans[c]) lines, ?_⟩
  rw [driveAll, hall, List.foldl_append, List.foldl_cons, foldl_driveLines _ _ _ fun d hd => alone d (hne d hd)]

/-! ### The end of a tick -/

theorem Channel.endTick_idle {ch : Channel} (h : ch.active = none) (k : Clock) :
    ch.endTick k = { ch with running := false, counted := false, edgeTaken := false } := by
  simp only [Channel.endTick, h]

theorem Channel.endTick_active {ch : Channel} {e : Step} (h : ch.active = some e) (k : Clock) :
    let moves := ch.running = true ∧ ch.counted = false
      ∧ (e.record.isOutput = true ∨ e.record.kindOf = some .count ∨ ch.gated k e.record = true)
    let last := 2 ^ e.record.prescale.toNat ≤ ch.phase + 1
    ch.endTick k = { ch with
      phase := if moves then (if last then 0 else ch.phase + 1) else ch.phase
      counter := if moves ∧ last then ch.counter + 1 else ch.counter
      running := true, counted := false, edgeTaken := false } := by
  intro moves last
  have hmoves : (ch.running && !ch.counted && (e.record.isOutput || e.record.isKind .count || ch.gated k e.record)) = true
      ↔ moves := by
    simp [moves, StepRecord.isKind, and_assoc, or_assoc]
  have hlast : ch.phase + 1 < e.record.prescaled ↔ ¬ last := by
    simp [last, StepRecord.prescaled]
  simp only [Channel.endTick, h, hmoves, Channel.passTick, hlast]
  by_cases hm : moves <;> by_cases hl : last <;> simp [hm, hl, h]

theorem exec_tick_withPart (pins : BitVec 16) (s : State) (p : Part) :
    exec (.tick pins) (s.withPart p) = .next ((s.withPart (Part.takeDue s.clock dueLimit p)).endTick pins) := rfl

/-- The command that stands for an event takes it. -/
theorem TimedEvent.exec_command (e : TimedEvent) (s : State) (p : Part) :
    exec e.command (s.withPart p) = .next (s.withPart (p.fire s.clock e)) := by
  cases e <;> rfl

theorem Part.noteChoice_eq (p : Part) (used : Bool) :
    p.noteChoice used = { p with choices := p.choices + if used then 1 else 0 } := by
  cases used <;> rfl

/-- Settles O52: TICK takes one due event after the other until none is left, and then every block of the tick's end is
read off its definition. -/
theorem tickAdvancesTheBlocks : Obligations.TickAdvancesTheBlocks := by
  refine ⟨fun s pins claims admin => ⟨Part.takeDue_due claims admin, ?_, fun hdue => ?_⟩, ?_⟩
  · rw [exec_tick_withPart, Part.takeDue_none (Part.takeDue_due claims admin)]
    rfl
  · let k := s.clock
    cases hchoice : chooseNext (s.part.orderIsIdle k) s.part.choices (s.part.due k) with
    | none => exact absurd (chooseNext_eq_none.1 hchoice) hdue
    | some chosen =>
      obtain ⟨e, used⟩ := chosen
      have hmem := mem_of_chooseNext hchoice
      refine ⟨e, hmem, if used then 1 else 0, s.withPart ((s.part.noteChoice used).fire k e), by split <;> decide, ?_, ?_⟩
      · rw [← Part.noteChoice_eq]
        exact e.exec_command ..
      · obtain ⟨hclaims, hadmin⟩ := Part.laws_fire (k := k) used e claims admin
        have hfewer := (Part.alarms_fire used hmem claims admin).trans_le (s.part.alarms_le k)
        have hfuel := Part.takeDue_fuel (k := k) (fuel := 63) 1 hclaims hadmin (by omega)
        have hfirst : Part.takeDue k dueLimit s.part = Part.takeDue k 63 ((s.part.noteChoice used).fire k e) := by
          rw [dueLimit, Part.takeDue, hchoice]
        rw [exec_tick_withPart]
        change _ = Host.Outcome.next ((s.withPart (Part.takeDue k (63 + 1) _)).endTick pins)
        rw [hfuel, ← hfirst]
        rfl
  · intro s pins p hdue
    refine ⟨endTicks s.clock p.chans, driveAll (endTicks s.clock p.chans) p.lines, ?_, fun c => ?_, fun i => ?_⟩
    · have htick := exec_tick_withPart pins s s.part
      rw [Part.takeDue_none hdue] at htick
      exact htick
    · have hchan : (endTicks s.clock p.chans)[c] = p.chans[c].endTick s.clock := by simp [endTicks]
      exact ⟨fun h => by rw [hchan, Channel.endTick_idle h], fun e h => by rw [hchan, Channel.endTick_active h]⟩
    · obtain ⟨d, hd⟩ := driveAll_frame (endTicks s.clock p.chans) p.lines i
      refine ⟨by rw [hd], by rw [hd], by rw [hd], fun hnone => ?_, fun c e he hout alone => ?_⟩
      · rw [driveAll, foldl_driveLines _ _ _ fun c _ => ?_]
        rintro ⟨e, he, hout, hclaims⟩
        obtain ⟨hb, ha⟩ := hnone c e he hout
        exact hclaims.elim hb ha
      · obtain ⟨l, hl⟩ := driveAll_alone (lines := p.lines) (i := i) (c := c)
          (chans := endTicks s.clock p.chans) fun d hd => by
            rintro ⟨x, hx, hxout, hclaims⟩
            obtain ⟨hb, ha⟩ := alone d x hd hx hxout
            exact hclaims.elim hb ha
        simp only [hl, driveLines, he, hout, if_true, setDrives, updateLine_getElem]
        exact ⟨fun hb ha => by rw [if_neg ha, if_pos hb], fun ha => by rw [if_pos ha]⟩

end Sys2Proof.Machine
end

section
/-! PROOF. What only its own commands move (R68, R69, R91, R93, R164, R169): the register base, the park levels and the
pair table under every effect of a command. -/

namespace Sys2Proof.Machine

/-! ### Park levels (R91) -/

theorem setDrives_park (l : Vector LineEntry 16) (ch : Channel) (b a : Drive) (i : LineId) :
    (setDrives l ch b a)[i].park = l[i].park := by
  obtain ⟨_, h⟩ := setDrives_frame l ch b a i
  rw [h]

theorem driveLines_park (l : Vector LineEntry 16) (ch : Channel) (i : LineId) : (driveLines l ch)[i].park = l[i].park := by
  obtain ⟨_, h⟩ := driveLines_frame l ch i
  rw [h]

/-- An update that keeps the park level of the line it changes keeps every park level. -/
theorem updateLine_park {f : LineEntry → LineEntry} (hf : ∀ l, (f l).park = l.park) (l : Vector LineEntry 16)
    (line : Option LineId) (i : LineId) : (updateLine l line f)[i].park = l[i].park := by
  rw [updateLine_getElem]
  split_ifs
  · exact hf _
  · rfl

theorem LineEntry.release_park (c : ChanId) (l : LineEntry) : (l.release c).park = l.park := by
  unfold LineEntry.release
  split <;> rfl

theorem LineEntry.claim_park (cls : ChClass) (c : ChanId) (l : LineEntry) : (l.claim cls c).park = l.park := by
  cases cls <;> rfl

namespace UnitView

theorem endActive_park (x : UnitContext) (status : DoneStatus) (forced : Bool) (u : UnitView) (i : LineId) :
    (u.endActive x status forced).lines[i].park = u.lines[i].park := by
  unfold UnitView.endActive
  split
  · rfl
  · simp only [UnitView.offerDone, UnitView.admitted_lines]
    split
    · exact setDrives_park ..
    · rfl

theorem closeNow_park (x : UnitContext) (u : UnitView) (i : LineId) :
    (u.closeNow x).lines[i].park = u.lines[i].park := by
  simp only [UnitView.closeNow, updateLine_park (LineEntry.release_park x.id)]

theorem stopNow_park (x : UnitContext) (close : Bool) (u : UnitView) (i : LineId) :
    (u.stopNow x close).lines[i].park = u.lines[i].park := by
  unfold UnitView.stopNow
  dsimp only
  split
  · exact closeNow_park ..
  · rfl

theorem Act.park {x : UnitContext} {u v : UnitView} (h : u.Act x v) (i : LineId) :
    v.lines[i].park = u.lines[i].park := by
  cases h with
  | offers body =>
    obtain ⟨_, _, _, h⟩ := u.offerCapture_frame x body
    rw [h]
  | ends e counter phase status => exact endActive_park x status false { u with ch := u.ch.at counter phase } i
  | halts h counter phase forced =>
    simp only [UnitView.endHalted]
    rw [stopNow_park]
    exact endActive_park x .halted forced { u with ch := { u.ch.at counter phase with halt := some h } } i
  | composes d =>
    have same : (u.compose x d).lines = u.lines := by
      unfold UnitView.compose UnitView.stage
      split
      · exact admitted_lines ..
      · rfl
    rw [same]
  | closes => exact closeNow_park ..
  | arms e =>
    unfold UnitView.arm
    split <;> rfl
  | removes =>
    simp only [UnitView.remove, UnitView.stage, admitted_lines]
  | begins e =>
    unfold UnitView.beginStart UnitView.beginAtTime
    dsimp only
    split_ifs <;> rfl
  | starts => exact driveLines_park ..
  | reports => simp only [UnitView.stage, admitted_lines]
  | tallies | zeroes | requests | flushes | stops | stales | holds | wakes | timesOut => rfl

theorem Runs.park {x : UnitContext} {u v : UnitView} (h : u.Runs x v) (i : LineId) :
    v.lines[i].park = u.lines[i].park :=
  h.keeps (P := fun w => w.lines[i].park = u.lines[i].park) (fun _ _ hact hw => (hact.park i).trans hw) rfl

theorem settle_park (u : UnitView) (i : LineId) : u.settle.lines[i].park = u.lines[i].park := by
  unfold UnitView.settle
  dsimp only
  split
  · exact setDrives_park ..
  · rfl

end UnitView

/-- The park levels are those of `p`. -/
abbrev Part.KeepsParks (p p' : Part) : Prop := ∀ i : LineId, p'.lines[i].park = p.lines[i].park

namespace Part.KeepsParks
variable {p p' p'' : Part} {k : Clock}

theorem of_lines (h : p'.lines = p.lines) : p.KeepsParks p' := fun i => by rw [h]

theorem trans (h : p.KeepsParks p') (h' : p'.KeepsParks p'') : p.KeepsParks p'' := fun i => (h' i).trans (h i)

theorem atUnit {c : ChanId} {f : UnitContext → UnitView → UnitView} {u : UnitView} (lines : u.lines = p.lines)
    (runs : u.Runs (p.context k c) (f (p.context k c) (p.view c))) : p.KeepsParks (p.atUnit k c f) := fun i => by
  rw [atUnit_lines, UnitView.settle_park, runs.park i, lines]

theorem command {i : Instr} (he : p.CommandEffect k i p') (other : ∀ r, i ≠ .linePark r) : p.KeepsParks p' := by
  cases he with
  | restartsRing q =>
    unfold Part.restart
    split
    · exact fun _ => rfl
    · exact of_lines (by simp)
  | passesHalt c close boundary deadline =>
    exact atUnit (p := p.waitOnChannel k c deadline) (u := p.view c) rfl (UnitView.runs_takeHalt ..)
  | closesStopped c boundary =>
    have closed : p.KeepsParks (p.atUnit k c fun x u => u.takeHalt x true boundary false) :=
      atUnit (u := p.view c) rfl (UnitView.runs_takeHalt ..)
    exact closed.trans (of_lines (by simp))
  | opens c cls b a q r =>
    intro i
    simp only [complete_lines, openChannel, updateLine_park (LineEntry.claim_park cls c)]
  | parks r command => exact absurd command (other r)
  | completes | createsRing | deletesRing | waitsOnRing | setsNotice | resumes | joins | splits | setsPosition =>
    exact of_lines (by simp)

theorem effect {known : Prop} {i : Instr} (he : p.Effect known k i p') (other : ∀ r, i ≠ .linePark r) :
    p.KeepsParks p' := by
  cases he with
  | chooses | grants | completes => exact of_lines (by simp)
  | unit c f runs => exact atUnit rfl runs
  | returns c fault f idle open' runs => exact atUnit rfl runs
  | joins w command c r =>
    exact atUnit (p := p.endTransaction) (u := ((p.view c).fetched false).joined r) rfl (UnitView.runs_handOver _)
  | restarts q =>
    unfold Part.restart
    split
    · exact fun _ => rfl
    · exact of_lines (by simp)
  | commands opcode r q live effect => exact command (p := p.endTransaction.take opcode r) effect other
  | configures b =>
    unfold Part.configured
    split <;> exact fun _ => rfl
  | restartsAdmin waiting =>
    obtain ⟨-, hd⟩ | ⟨-, -, _, hd | ⟨-, hd⟩⟩ := p.dropAdminTransaction_cases k waiting <;>
      exact of_lines (by rw [hd])
  | withdraws | ends | writes | writeFails | notices | drops | rotates | untimes | acqDone | faults | postsTail | postsHead
    | postsAdminTail | postsAcqHead | registers | enables => exact fun _ => rfl

theorem endTick (p : Part) (k : Clock) : p.KeepsParks (p.endTick k) := fun i => by
  obtain ⟨_, h⟩ := driveAll_frame (endTicks k p.chans) p.lines i
  calc (p.endTick k).lines[i].park = (driveAll (endTicks k p.chans) p.lines)[i].park := rfl
    _ = p.lines[i].park := by rw [h]

end Part.KeepsParks

/-! ### The pair table (R93) and CFGBASE (R169) -/

theorem Part.CommandEffect.pairs {p p' : Part} {k : Clock} {i : Instr} (he : p.CommandEffect k i p')
    (join : ∀ r, i ≠ .pairJoin r) (split : ∀ r, i ≠ .pairSplit r) : p'.pairs = p.pairs := by
  cases he with
  | restartsRing q =>
    unfold Part.restart
    split
    · rfl
    · simp
  | joins r command => exact absurd command (join r)
  | splits r command => exact absurd command (split r)
  | completes | createsRing | deletesRing | waitsOnRing | setsNotice | opens | passesHalt | closesStopped | resumes
    | setsPosition | parks => simp [openChannel, passHalt]

theorem Part.Effect.pairs {known : Prop} {p p' : Part} {k : Clock} {i : Instr} (he : p.Effect known k i p')
    (join : ∀ r, i ≠ .pairJoin r) (split : ∀ r, i ≠ .pairSplit r) : p'.pairs = p.pairs := by
  cases he with
  | chooses | grants | completes | unit | returns | joins => simp
  | restarts q =>
    unfold Part.restart
    split
    · rfl
    · simp
  | commands opcode r q live effect => exact effect.pairs join split
  | configures b =>
    unfold Part.configured
    split <;> rfl
  | restartsAdmin waiting =>
    obtain ⟨-, hd⟩ | ⟨-, -, _, hd | ⟨-, hd⟩⟩ := p.dropAdminTransaction_cases k waiting <;> rw [hd]
  | withdraws | ends | writes | writeFails | notices | drops | rotates | untimes | acqDone | faults | postsTail | postsHead
    | postsAdminTail | postsAcqHead | registers | enables => rfl

theorem Part.grant_cfgBase (p : Part) (tb : Ticks) : (p.grant tb).device.cfgBase = p.device.cfgBase := by
  obtain h | ⟨-, ⟨_, -, h⟩ | ⟨_, _, _, -, h⟩ | ⟨_, -, h⟩ | ⟨-, h⟩ | ⟨-, h⟩⟩ := p.grant_cases tb <;> rw [h] <;> rfl

theorem Part.CommandEffect.device {p p' : Part} {k : Clock} {i : Instr} (he : p.CommandEffect k i p') :
    p'.device = p.device := by
  cases he with
  | restartsRing q => exact (p.restart_frame q).2.2.1
  | completes | createsRing | deletesRing | waitsOnRing | setsNotice | opens | passesHalt | closesStopped | resumes | joins
    | splits | setsPosition | parks => simp [openChannel, passHalt]

theorem Part.Effect.cfgBase {known : Prop} {p p' : Part} {k : Clock} {i : Instr} (he : p.Effect known k i p')
    (write : ∀ v, i ≠ .cfgbaseWrite v) : p'.device.cfgBase = p.device.cfgBase := by
  cases he with
  | grants => exact p.grant_cfgBase _
  | chooses used =>
    rw [Part.noteChoice_eq]
  | completes | unit | returns | joins => simp
  | restarts q => rw [(p.restart_frame q).2.2.1]
  | commands opcode r q live effect => rw [effect.device]; rfl
  | configures b =>
    unfold Part.configured
    split <;> rfl
  | registers d state base => exact base.elim (fun ⟨v, hv⟩ => absurd hv (write v)) id
  | withdraws | ends | writes | writeFails | notices | drops | rotates | untimes | acqDone | faults | postsTail | postsHead
    | postsAdminTail | postsAcqHead | enables | restartsAdmin => rfl

/-! ### Every command but its own -/

/-- What every effect of command `i` and the end of a tick keep, every command but the resets keeps. -/
theorem exec_keeps_of_effects {P : Part → Prop} {s t : State} {i : Instr} (h : exec i s = .next t)
    (hard : ∀ pins, i ≠ .hardReset pins) (reset : i ≠ .reset)
    (effect : ∀ p q, Part.Effect False s.clock i p q → P p → P q) (tick : ∀ p, P p → P (p.endTick s.clock))
    (hs : P s.part) : P t.part := by
  by_cases htick : ∃ pins, i = .tick pins
  · obtain ⟨pins, rfl⟩ := htick
    rw [exec_tick_part h]
    exact tick _ ((s.part.effects_takeDue dueLimit).keeps effect hs)
  · exact (exec_effects h ⟨hard, reset, not_exists.1 htick⟩ fun h => h.elim).keeps effect hs

/-- Settles O59: outside the part by the rows, and inside it by the effects of the commands. -/
theorem onlyItsCommandsMoveEachRegister : Obligations.OnlyItsCommandsMoveEachRegister := by
  intro s t i h hard
  refine ⟨fun htick => ?_, fun hread => ⟨tbhi_of_exec h hread hard, ?_⟩, fun hwrite => ?_, fun hreset hpark => ?_,
    fun hreset hjoin hsplit => ?_⟩
  · by_cases hread : i = .tbloRead
    · subst hread
      cases h
      exact ⟨rfl, rfl, rfl, rfl⟩
    · obtain ⟨p, rfl⟩ := exists_withPart_of_exec h hard hread htick
      exact ⟨rfl, rfl, rfl, rfl⟩
  · by_cases htick : ∃ pins, i = .tick pins
    · obtain ⟨pins, rfl⟩ := htick
      rw [exec_tick] at h
      cases h
      rfl
    · obtain ⟨p, rfl⟩ := exists_withPart_of_exec h hard hread (not_exists.1 htick)
      rfl
  · by_cases hreset : i = .reset
    · subst hreset
      rw [exec_reset_part h]
      rfl
    · exact exec_keeps_of_effects (P := fun p => p.device.cfgBase = s.part.device.cfgBase) h hard hreset
        (fun _ _ he hp => (he.cfgBase hwrite).trans hp) (fun _ hp => hp) rfl
  · exact exec_keeps_of_effects (P := fun p => s.part.KeepsParks p) h hard hreset
      (fun _ _ he hp => hp.trans (.effect he hpark)) (fun p hp => hp.trans (.endTick p _)) fun _ => rfl
  · exact exec_keeps_of_effects (P := fun p => p.pairs = s.part.pairs) h hard hreset
      (fun _ _ he hp => (he.pairs hjoin hsplit).trans hp) (fun _ hp => hp) rfl

end Sys2Proof.Machine
end

section
/-! PROOF. Host words: the words of POST and of the admin records decode to the command that encodes to them (spec 12.3,
12.5). -/

namespace Sys2Proof

/-! ### Admin records (spec 12.3) -/

namespace CommandRecord

theorem opcode_toBytes (opcode : BitVec 8) (r : CommandRecord) : (r.toBytes opcode).extractLsb' 0 8 = opcode := by
  simp [toBytes, BitVec.extractLsb'_append_eq_right, -Nat.reduceAdd]

theorem ofBytes_toBytes (opcode : BitVec 8) (r : CommandRecord) : ofBytes (r.toBytes opcode) = r := by
  obtain ⟨zero1, tag, body⟩ := r
  simp [ofBytes, toBytes, BitVec.extractLsb'_append_eq_of_le, BitVec.extractLsb'_append_eq_right, -Nat.reduceAdd]

theorem toBytes_ofBytes (bytes : Slot) : (ofBytes bytes).toBytes (bytes.extractLsb' 0 8) = bytes := by
  have htag : bytes.extractLsb' 32 224 ++ bytes.extractLsb' 16 16 = bytes.extractLsb' 16 240 :=
    BitVec.extractLsb'_append_extractLsb'_eq_extractLsb' rfl
  have hzero : bytes.extractLsb' 16 240 ++ bytes.extractLsb' 8 8 = bytes.extractLsb' 8 248 :=
    BitVec.extractLsb'_append_extractLsb'_eq_extractLsb' rfl
  have hopcode : bytes.extractLsb' 8 248 ++ bytes.extractLsb' 0 8 = bytes :=
    (BitVec.extractLsb'_append_extractLsb'_eq_extractLsb' (start₁ := 0) (len₁ := 8) rfl).trans BitVec.extractLsb'_eq_self
  unfold toBytes ofBytes
  dsimp only
  rw [htag, hzero, hopcode]

end CommandRecord

theorem encode_decodeAdminRecord (bytes : Slot) :
    encodeHostWord (decodeAdminRecord bytes) = some (.adminRecord bytes) := by
  have named : ∀ opcode : BitVec 8, (bytes.extractLsb' 0 8).toNat = opcode.toNat →
      (CommandRecord.ofBytes bytes).toBytes opcode = bytes := fun opcode h => by
    rw [← BitVec.eq_of_toNat_eq h]
    exact CommandRecord.toBytes_ofBytes bytes
  unfold decodeAdminRecord
  dsimp only
  split <;> refine congrArg (fun b => some (HostWord.adminRecord b)) ?_
  case h_15 => exact CommandRecord.toBytes_ofBytes bytes
  all_goals exact named _ ‹_›

theorem decodeAdminRecord_wellFormed (bytes : Slot) : (decodeAdminRecord bytes).wellFormed = true := by
  unfold decodeAdminRecord
  dsimp only
  split
  case h_15 =>
    simp only [imp_false] at *
    have hunknown : ¬(1 ≤ (bytes.extractLsb' 0 8).toNat ∧ (bytes.extractLsb' 0 8).toNat ≤ 14) := by omega
    simp only [Instr.wellFormed, knownOpcode, decide_eq_false hunknown, Bool.not_false]
  all_goals rfl

theorem decodeAdminRecord_badOpcode {opcode : BitVec 8} (h : knownOpcode opcode = false) (r : CommandRecord) :
    decodeAdminRecord (r.toBytes opcode) = .badOpcode opcode r := by
  have hunknown : ¬(1 ≤ opcode.toNat ∧ opcode.toNat ≤ 14) := of_decide_eq_false h
  unfold decodeAdminRecord
  rw [CommandRecord.opcode_toBytes, CommandRecord.ofBytes_toBytes]
  dsimp only
  split
  case h_15 => rfl
  all_goals omega

/-! ### POST words (spec 12.5) -/

theorem postWord_ringId (id : BitVec 4) (index : BitVec 16) : (postWord id index).extractLsb' 24 4 = id := by
  simp [postWord, BitVec.extractLsb'_append_eq_of_le, BitVec.extractLsb'_append_eq_right, -Nat.reduceAdd]

theorem postWord_index (id : BitVec 4) (index : BitVec 16) : (postWord id index).extractLsb' 0 16 = index := by
  simp [postWord, BitVec.extractLsb'_append_eq_right, -Nat.reduceAdd]

theorem postWord_of_fields (v : Word32) :
    postWord (v.extractLsb' 24 4) (v.extractLsb' 0 16) = v &&& 0x0F00FFFF := by
  have hsplit : v.extractLsb' 28 4 ++ v.extractLsb' 24 4 ++ v.extractLsb' 16 8 ++ v.extractLsb' 0 16 = v := by
    have hid : v.extractLsb' 28 4 ++ v.extractLsb' 24 4 = v.extractLsb' 24 8 :=
      BitVec.extractLsb'_append_extractLsb'_eq_extractLsb' rfl
    have hgap : v.extractLsb' 24 8 ++ v.extractLsb' 16 8 = v.extractLsb' 16 16 :=
      BitVec.extractLsb'_append_extractLsb'_eq_extractLsb' rfl
    rw [hid, hgap]
    exact (BitVec.extractLsb'_append_extractLsb'_eq_extractLsb' (start₁ := 0) (len₁ := 16) rfl).trans
      BitVec.extractLsb'_eq_self
  have hmask : (0x0F00FFFF : Word32) = (0 : BitVec 4) ++ BitVec.allOnes 4 ++ (0 : BitVec 8) ++ BitVec.allOnes 16 := by
    decide
  conv_rhs => rw [← hsplit, hmask, BitVec.and_append, BitVec.and_append, BitVec.and_append, BitVec.and_allOnes,
    BitVec.and_allOnes]
  simp [postWord]

theorem encode_decodePost (v : Word32) :
    encodeHostWord (decodePost v) = some (.write .post (v &&& 0x0F00FFFF)) := by
  have named : ∀ id : BitVec 4, (v.extractLsb' 24 4).toNat = id.toNat →
      postWord id (v.extractLsb' 0 16) = v &&& 0x0F00FFFF := fun id h => by
    rw [← BitVec.eq_of_toNat_eq h]
    exact postWord_of_fields v
  unfold decodePost
  dsimp only
  split
  case h_16 =>
    simp only [imp_false] at *
    have h15 : (v.extractLsb' 24 4).toNat = 15 := by omega
    exact congrArg (fun word => some (HostWord.write .post word)) (named 15 h15)
  all_goals exact congrArg (fun word => some (HostWord.write .post word)) (named _ ‹_›)

theorem decodePost_wellFormed (v : Word32) : (decodePost v).wellFormed = true := by
  unfold decodePost
  dsimp only
  split <;> rfl

/-! ### Host words -/

theorem decodeRegisterWrite_post (v : Word32) : decodeRegisterWrite .post v = decodePost v := rfl

theorem decodePost_stepTail (c : ChanId) (index : BitVec 16) :
    decodePost (postWord (BitVec.ofNat 4 c) index) = .postStepTail c index := by
  unfold decodePost
  rw [postWord_ringId, postWord_index]
  fin_cases c <;> rfl

theorem decodePost_cqHead (q : RingId) (index : BitVec 16) :
    decodePost (postWord (BitVec.ofNat 4 (8 + q)) index) = .postCqHead q index := by
  unfold decodePost
  rw [postWord_ringId, postWord_index]
  fin_cases q <;> rfl

/-- Settles O3: the word of each command carries the command's opcode byte, register or ring id, and its operands at
the positions where the decoder reads them. -/
theorem hostWordsRoundTrip : Obligations.HostWordsRoundTrip := by
  intro i w hwell hword
  cases i with
  | postStepTail c index =>
    cases hword
    exact decodePost_stepTail c index
  | postCqHead q index =>
    cases hword
    exact decodePost_cqHead q index
  | postAdminTail | postAcqHead =>
    cases hword
    simp only [decodeHostWord, decodeRegisterWrite_post, decodePost, postWord_ringId, postWord_index]
    rfl
  | postRingId1415 id15 index =>
    cases hword
    simp only [decodeHostWord, decodeRegisterWrite_post, decodePost, postWord_ringId, postWord_index]
    cases id15 <;> rfl
  | devstatWrite v | intstatWrite v =>
    cases hword
    exact if_neg (by simpa [Instr.wellFormed] using hwell)
  | ignoredRegisterWrite register v =>
    cases hword
    exact if_pos hwell
  | badOpcode opcode r =>
    cases hword
    exact decodeAdminRecord_badOpcode (by simpa [Instr.wellFormed] using hwell) r
  | reset | enable | restartAdmin | cfgbaseWrite =>
    cases hword
    rfl
  | nop r | cqCreate r | cqDelete r | cqReset r | cqNotice r | chOpen r | chHalt r | chClose r | chResume r | chRead r
    | pairJoin r | pairSplit r | posSet r | linePark r =>
    cases hword
    simp only [decodeHostWord, decodeAdminRecord, CommandRecord.opcode_toBytes, CommandRecord.ofBytes_toBytes]
    rfl
  | _ => cases hword

theorem decodeRegisterWrite_wellFormed (register : Reg) (v : Word32) :
    (decodeRegisterWrite register v).wellFormed = true := by
  unfold decodeRegisterWrite
  split
  case isTrue h => exact h
  case isFalse h =>
    cases register with
    | devctl =>
      dsimp only
      split <;> rfl
    | post => exact decodePost_wellFormed v
    | devstat | intstat => simpa [Instr.wellFormed] using h
    | cfgbase => rfl
    | devid | tblo | tbhi => exact absurd rfl h

/-- A register other than DEVCTL and POST keeps every bit of the write. -/
theorem encode_decodeRegisterWrite {register : Reg} (hctl : register ≠ .devctl) (hpost : register ≠ .post) (v : Word32) :
    encodeHostWord (decodeRegisterWrite register v) = some (.write register v) := by
  unfold decodeRegisterWrite
  split
  case isTrue h => rfl
  case isFalse h =>
    cases register with
    | devctl => exact absurd rfl hctl
    | post => exact absurd rfl hpost
    | devstat | intstat | cfgbase | devid | tblo | tbhi => rfl

theorem exists_encode_devctl (v : Word32) : ∃ w, encodeHostWord (decodeRegisterWrite .devctl v) = some w := by
  unfold decodeRegisterWrite
  split
  case isTrue h => exact ⟨_, rfl⟩
  case isFalse h =>
    dsimp only
    split <;> exact ⟨_, rfl⟩

/-- Settles O4: each host word decodes to a well-formed command whose word is known, and O3 decodes that word. -/
theorem hostWordsDecodeWellFormed : Obligations.HostWordsDecodeWellFormed := by
  intro w
  have hwell : (decodeHostWord w).wellFormed = true := by
    cases w with
    | write register v => exact decodeRegisterWrite_wellFormed register v
    | adminRecord bytes => exact decodeAdminRecord_wellFormed bytes
  refine ⟨hwell, ?_⟩
  cases w with
  | adminRecord bytes =>
    have hword : encodeHostWord (decodeHostWord (.adminRecord bytes)) = some (.adminRecord bytes) :=
      encode_decodeAdminRecord bytes
    exact ⟨_, hword, rfl, fun _ _ => rfl, nofun, nofun⟩
  | write register v =>
    by_cases hctl : register = .devctl
    · subst hctl
      obtain ⟨w, hword⟩ := exists_encode_devctl v
      refine ⟨w, hword, hostWordsRoundTrip _ w hwell hword, nofun, ?_, nofun⟩
      rintro _ _ ⟨⟩ hne
      exact absurd rfl hne
    · by_cases hpost : register = .post
      · subst hpost
        have hword := encode_decodePost v
        refine ⟨_, hword, hostWordsRoundTrip _ _ hwell hword, nofun, ?_, ?_⟩
        · rintro _ _ ⟨⟩ _ hne
          exact absurd rfl hne
        · rintro _ ⟨⟩
          rfl
      · refine ⟨_, encode_decodeRegisterWrite hctl hpost v, rfl, nofun, ?_, ?_⟩
        · rintro _ _ ⟨⟩ _ _
          rfl
        · rintro _ ⟨⟩
          exact absurd rfl hpost

end Sys2Proof
end

section
/-! PROOF. Step records, entry slots and ACQ entries: each field stands at its position (spec 12.1 to 12.3). -/

namespace Sys2Proof.Machine

/-! ### Step records (spec 12.1) -/

/-- Two neighbouring fields of a word make one. -/
theorem extractLsb'_append_neighbour {n : Nat} (w : BitVec n) {i a j b : Nat} (h : j = i + a) :
    w.extractLsb' j b ++ w.extractLsb' i a = w.extractLsb' i (b + a) := by
  subst h
  exact BitVec.extractLsb'_append_extractLsb'_eq_extractLsb' rfl

theorem ofBool_getLsbD {n : Nat} (w : BitVec n) (i : Nat) : BitVec.ofBool (w.getLsbD i) = w.extractLsb' i 1 := by
  apply BitVec.eq_of_getLsbD_eq
  intro j hj
  obtain rfl : j = 0 := by omega
  simp

theorem StepRecord.ofBytes_toBytes (r : StepRecord) : StepRecord.ofBytes r.toBytes = r := by
  obtain ⟨⟩ := r
  simp [ofBytes, toBytes, BitVec.extractLsb'_append_eq_of_le, BitVec.extractLsb'_append_eq_right, BitVec.getLsbD_append,
    -Nat.reduceAdd, -BitVec.getLsbD_eq_getElem]

theorem StepRecord.toBytes_ofBytes (w : Slot) : (StepRecord.ofBytes w).toBytes = w := by
  have hwhole : w.extractLsb' 0 256 = w := BitVec.extractLsb'_eq_self
  conv_rhs => rw [← hwhole]
  simp only [ofBytes, toBytes, ofBool_getLsbD, extractLsb'_append_neighbour]

theorem StepRecord.kindOf_eq (r : StepRecord) : r.kindOf =
    [none, some .tone, some .strobe, some .pwm, some .pdm, some .chime, some .level, some .period, some .width,
      some .phase, some .count, some .position].getD r.kind.toNat none := by
  unfold kindOf
  split
  case h_12 =>
    simp only [imp_false] at *
    obtain h | h : r.kind.toNat = 0 ∨ 12 ≤ r.kind.toNat := by omega
    · rw [h]
      rfl
    · rw [List.getD_eq_default _ _ h]
  all_goals
    rename_i h
    rw [h]
    rfl

/-! ### Entry slots (spec 12.2) -/

theorem SlotImage.toBytes_fields (i : SlotImage) (phase : Bool) :
    (i.toBytes phase).extractLsb' 0 4 = i.type ∧ (i.toBytes phase).extractLsb' 4 3 = 0 ∧ (i.toBytes phase).getLsbD 7 = phase
      ∧ (i.toBytes phase).extractLsb' 8 8 = i.channel ∧ (i.toBytes phase).extractLsb' 16 8 = i.seq
      ∧ (i.toBytes phase).extractLsb' 24 8 = i.missed ∧ (i.toBytes phase).extractLsb' 32 16 = i.tag
      ∧ (i.toBytes phase).extractLsb' 48 8 = i.status ∧ (i.toBytes phase).extractLsb' 56 8 = i.flags
      ∧ (i.toBytes phase).extractLsb' 64 48 = i.time ∧ (i.toBytes phase).extractLsb' 112 8 = i.direction
      ∧ (i.toBytes phase).extractLsb' 120 8 = i.which ∧ (i.toBytes phase).extractLsb' 128 32 = i.value
      ∧ (i.toBytes phase).extractLsb' 160 16 = i.sqHead ∧ (i.toBytes phase).extractLsb' 176 8 = i.flushed
      ∧ (i.toBytes phase).extractLsb' 184 8 = i.reason ∧ (i.toBytes phase).extractLsb' 192 16 = i.firstTag
      ∧ (i.toBytes phase).extractLsb' 208 48 = 0 := by
  refine ⟨?_, ?_, ?_, ?_, ?_, ?_, ?_, ?_, ?_, ?_, ?_, ?_, ?_, ?_, ?_, ?_, ?_, ?_⟩ <;>
    simp [toBytes, BitVec.extractLsb'_append_eq_of_le, BitVec.extractLsb'_append_eq_right, BitVec.getLsbD_append,
      -Nat.reduceAdd, -BitVec.getLsbD_eq_getElem]

theorem Stats.toBytes_fields (s : Stats) (phase : Bool) :
    (s.toBytes phase).extractLsb' 0 4 = 3 ∧ (s.toBytes phase).extractLsb' 4 3 = 0 ∧ (s.toBytes phase).getLsbD 7 = phase
      ∧ (s.toBytes phase).extractLsb' 8 24 = 0 ∧ (s.toBytes phase).extractLsb' 32 32 = BitVec.ofNat 32 s.min
      ∧ (s.toBytes phase).extractLsb' 64 32 = BitVec.ofNat 32 s.max
      ∧ (s.toBytes phase).extractLsb' 96 32 = BitVec.ofNat 32 s.n
      ∧ (s.toBytes phase).extractLsb' 128 64 = BitVec.ofNat 64 s.sum ∧ (s.toBytes phase).extractLsb' 192 64 = 0 := by
  refine ⟨?_, ?_, ?_, ?_, ?_, ?_, ?_, ?_, ?_⟩ <;>
    simp [toBytes, BitVec.extractLsb'_append_eq_of_le, BitVec.extractLsb'_append_eq_right, BitVec.getLsbD_append,
      -Nat.reduceAdd, -BitVec.getLsbD_eq_getElem]

theorem padBytes_fields (phase : Bool) :
    (padBytes phase).extractLsb' 0 4 = 8 ∧ (padBytes phase).extractLsb' 4 3 = 0 ∧ (padBytes phase).getLsbD 7 = phase
      ∧ (padBytes phase).extractLsb' 8 248 = 0 := by
  cases phase <;> decide

theorem AcqEntry.toBytes_fields (e : AcqEntry) (phase : Bool) :
    (e.toBytes phase).extractLsb' 0 8 = e.opcode ∧ (e.toBytes phase).extractLsb' 8 8 = e.status.code
      ∧ (e.toBytes phase).extractLsb' 16 15 = 0 ∧ (e.toBytes phase).getLsbD 31 = phase
      ∧ (e.toBytes phase).extractLsb' 32 16 = e.tag ∧ (e.toBytes phase).extractLsb' 48 16 = BitVec.ofNat 16 e.adminHead
      ∧ (e.toBytes phase).extractLsb' 64 32 = e.results.word0 ∧ (e.toBytes phase).extractLsb' 96 32 = e.results.word1
      ∧ (e.toBytes phase).extractLsb' 128 32 = e.results.word2 ∧ (e.toBytes phase).extractLsb' 160 32 = e.results.word3
      ∧ (e.toBytes phase).extractLsb' 192 64 = 0 := by
  have hsplit : (e.toBytes phase).extractLsb' 16 15 =
      (e.toBytes phase).extractLsb' 24 7 ++ (e.toBytes phase).extractLsb' 16 8 :=
    (extractLsb'_append_neighbour (e.toBytes phase) (i := 16) (a := 8) (j := 24) (b := 7) rfl).symm
  rw [hsplit]
  refine ⟨?_, ?_, ?_, ?_, ?_, ?_, ?_, ?_, ?_, ?_, ?_⟩ <;>
    simp [toBytes, BitVec.extractLsb'_append_eq_of_le, BitVec.extractLsb'_append_eq_right, BitVec.getLsbD_append,
      -Nat.reduceAdd, -BitVec.getLsbD_eq_getElem]

theorem AdminStatus.toNat_code (s : AdminStatus) : s.code.toNat = (match s with
    | .ok => 0 | .badOpcode => 1 | .badParam => 2 | .badState => 3 | .lineBusy => 4 | .deadline => 5) := by
  cases s <;> rfl

theorem DoneStatus.toNat_code (s : DoneStatus) : s.code.toNat = (match s with
    | .done => 0 | .superseded => 1 | .preempted => 2 | .halted => 3 | .noSignal => 4 | .badStep => 5
    | .lateSkipped => 6 | .markTimeout => 7) := by
  cases s <;> rfl

theorem DoneBody.flagsByte_fields (b : DoneBody) :
    b.flagsByte.getLsbD 0 = b.flags.late ∧ b.flagsByte.getLsbD 1 = b.flags.heldStart
      ∧ b.flagsByte.getLsbD 2 = b.flags.underrun ∧ b.flagsByte.getLsbD 3 = b.flags.forced
      ∧ b.flagsByte.getLsbD 4 = b.stats.isSome ∧ b.flagsByte.extractLsb' 5 3 = 0 := by
  unfold flagsByte
  generalize b.stats.isSome = long
  refine ⟨?_, ?_, ?_, ?_, ?_, ?_⟩ <;>
    simp [BitVec.extractLsb'_append_eq_of_le, BitVec.getLsbD_append, -Nat.reduceAdd, -BitVec.getLsbD_eq_getElem]

theorem Entry.stats_eq_some {e : Entry} {a : Stats} :
    e.stats = some a ↔ ∃ b, e.draft.body = .stepDone b ∧ b.stats = some a := by
  unfold Entry.stats
  split <;> simp [*]

theorem Entry.isLong_iff (e : Entry) :
    e.isLong = true ↔ ∃ b a, e.draft.body = .stepDone b ∧ b.stats = some a := by
  rw [Entry.isLong, Option.isSome_iff_exists, exists_comm]
  simp only [Entry.stats_eq_some]

theorem toNat_ofNat_chan (c : ChanId) : (BitVec.ofNat 8 c).toNat = c.val := by
  rw [BitVec.toNat_ofNat, Nat.mod_eq_of_lt (by omega)]

/-- Settles O5: each layout is the sequence of its fields, and a field is read back where it was laid. -/
theorem recordAndSlotBytesHoldTheFields : Obligations.RecordAndSlotBytesHoldTheFields := by
  refine ⟨⟨StepRecord.toBytes_ofBytes, StepRecord.ofBytes_toBytes, fun w => ?_, StepRecord.kindOf_eq⟩,
    ⟨SlotImage.toBytes_fields, Stats.toBytes_fields, padBytes_fields⟩, fun e => ?_, fun e phase => ?_, fun e phase => ?_⟩
  · refine ⟨rfl, rfl, rfl, rfl, rfl, rfl, rfl, rfl, rfl, rfl, rfl, rfl, rfl, rfl, rfl, rfl, rfl, rfl, rfl, rfl, rfl, rfl,
      rfl, rfl, rfl⟩
  · obtain ⟨⟨channel, time, body⟩, seq, missed⟩ := e
    have hchannel : channel.val < 256 := by omega
    dsimp only
    cases body with
    | stepDone b =>
      obtain ⟨hlate, hheld, hunderrun, hforced, hlong, hzero⟩ := b.flagsByte_fields
      exact ⟨⟨toNat_ofNat_chan channel, rfl, rfl, rfl⟩, rfl, rfl, b.status.toNat_code, hlate, hheld, hunderrun, hforced,
        hlong, hzero, rfl, rfl, rfl, rfl, rfl, rfl, rfl⟩
    | capture | wrap | threshold | flush | fault => simp [Entry.image, hchannel, directionCode, reasonCode]
  · obtain ⟨hopcode, hstatus, hrest⟩ := e.toBytes_fields phase
    exact ⟨hopcode, by rw [hstatus]; exact e.status.toNat_code, hrest⟩
  · refine ⟨e.isLong_iff, rfl, rfl, fun b a hbody hstats => ?_, rfl⟩
    have hlong : e.stats = some a := Entry.stats_eq_some.mpr ⟨b, hbody, hstats⟩
    simp only [Entry.partBytes, hlong]

end Sys2Proof.Machine
end

section
/-! PROOF. The levels, edges and gates of each kind (R31, R35 to R41, R44, R56 to R59, R71, R72, R84), and the records that
validation accepts (R9, R30, R39, R50, R98, R171). -/

namespace Sys2Proof.Machine

/-! ### Levels, edges and gates -/

theorem StepRecord.polarityHigh_iff (r : StepRecord) : r.polarityHigh = true ↔ r.polarity = 1 := by
  simp [polarityHigh]

theorem Clock.rises_iff (k : Clock) (i : LineId) :
    k.rises (some i) = true ↔ ∃ v, k.previous = some v ∧ v[i] = false ∧ k.sample[i] = true := by
  unfold rises compares before level
  cases k.previous <;> simp

theorem Clock.falls_iff (k : Clock) (i : LineId) :
    k.falls (some i) = true ↔ ∃ v, k.previous = some v ∧ v[i] = true ∧ k.sample[i] = false := by
  unfold falls compares before level
  cases k.previous <;> simp

theorem LineEntry.shows_eq (l : LineEntry) (pin : Bool) : l.shows pin =
    if l.owner.isSome = true ∧ l.drive ≠ .none then decide (l.drive = .high)
    else if l.park = .float then pin else decide (l.park = .high) := by
  obtain ⟨park, owner, listeners, drive⟩ := l
  unfold shows
  cases owner <;> cases drive <;> cases park <;> rfl

/-- Under ENVELOPE the first prescaled tick is that of counter and cycle count 0. -/
theorem StepRecord.aDrive_envelope {r : StepRecord} (h : r.aFunction = 3) (n cycles : Nat) (b : Bool) :
    r.aDrive n cycles b = .ofLevel (decide (n = 0 ∧ cycles = 0)) := by
  unfold aDrive
  rw [h, Bool.decide_and]
  rfl

theorem Channel.gated_width {ch : Channel} {k : Clock} {r : StepRecord} {i : LineId} (hb : ch.bLine = some i)
    (h : r.kindOf = some .width) : ch.gated k r = true ↔ (k.sample[i] = true ↔ r.polarity = 1) := by
  simp only [gated, h, hb, Clock.level]
  rw [beq_iff_eq, Bool.eq_iff_iff, r.polarityHigh_iff]

theorem Channel.gated_phase {ch : Channel} {k : Clock} {r : StepRecord} {i j : LineId} (hb : ch.bLine = some i)
    (ha : ch.aLine = some j) (h : r.kindOf = some .phase) :
    ch.gated k r = true ↔ k.sample[j] = true ∧ k.sample[i] = false := by
  simp [gated, h, hb, ha, Clock.level]

theorem Channel.intervalEdge_period {ch : Channel} {k : Clock} {r : StepRecord} (h : r.kindOf = some .period) :
    ch.intervalEdge k r = if r.polarity = 1 then k.rises ch.bLine else k.falls ch.bLine := by
  simp only [intervalEdge, h, Clock.edgeOf, r.polarityHigh_iff]

theorem Channel.intervalEdge_width {ch : Channel} {k : Clock} {r : StepRecord} (h : r.kindOf = some .width) :
    ch.intervalEdge k r =
      if (r.polarity = 1 ↔ ch.intervalArmed = true) then k.falls ch.bLine else k.rises ch.bLine := by
  simp only [intervalEdge, h, Clock.edgeOf, Clock.edgeAgainst, r.polarityHigh_iff]
  cases ch.intervalArmed <;> by_cases hp : r.polarity = 1 <;> simp [hp]

/-- Settles O7: by the definitions of the kinds' levels, the line's level, and the gates. -/
theorem levelsEdgesAndGatesFollowTheKind : Obligations.LevelsEdgesAndGatesFollowTheKind := by
  refine ⟨fun r n cycles odd b => ?_, fun k i => ⟨k.rises_iff i, k.falls_iff i⟩, LineEntry.shows_eq,
    fun ch k r i hb => ?_⟩
  · refine ⟨fun h => ?_, fun h => ?_, fun h => ?_, fun h => ?_, fun h => ?_, fun h => ?_, fun h => ?_, fun h =>
      StepRecord.aDrive_envelope h n cycles b⟩
    · rcases h with h | h <;> simp only [StepRecord.bLevel, h]
    · simp [StepRecord.bLevel, h]
    · simp [StepRecord.bLevel, h]
    · simp only [StepRecord.bLevel, h, r.polarityHigh_iff]
    all_goals
      unfold StepRecord.aDrive
      rw [h]
      rfl
  · refine ⟨fun h => ⟨by simp only [Channel.gated, h], ?_⟩, fun h => ⟨Channel.gated_width hb h, ?_⟩, fun j h ha =>
      ⟨Channel.gated_phase hb ha h, by simp only [Channel.intervalEdge, h, hb]⟩⟩
    · rw [Channel.intervalEdge_period h, hb]
    · rw [Channel.intervalEdge_width h, hb]

/-! ### The checks of R9 -/

theorem pdmWidth_isSome_iff (top limit : Nat) :
    (pdmWidth top limit).isSome = true ↔ ∃ w, 1 ≤ w ∧ w ≤ limit ∧ top + 1 = 2 ^ w := by
  constructor
  · intro h
    induction limit with
    | zero => simp [pdmWidth] at h
    | succ n ih =>
      rw [pdmWidth] at h
      split at h
      · exact ⟨n + 1, by omega, le_rfl, ‹_›⟩
      · obtain ⟨w, hpos, hle, htop⟩ := ih h
        exact ⟨w, hpos, by omega, htop⟩
  · rintro ⟨w, hpos, hle, htop⟩
    rw [pdmWidth_eq_some hpos hle htop]
    rfl

theorem find?_cons_eq_if {α : Type} (p : α → Bool) (a : α) (l : List α) :
    (a :: l).find? p = if p a = true then some a else l.find? p := by
  cases h : p a <;> simp [h]

/-- The check of R9 with the given code fails; a kind is named, so that check 1 passes. -/
def failsCheck (ch : Channel) (k : Kind) (wide : Bool) (r : StepRecord) : Nat → Bool
  | 2 => failsClass ch k
  | 3 => failsLine ch k r
  | 4 => failsRange k wide r
  | 5 => failsPrescale r
  | 6 => failsPdmTop k wide r
  | 7 => failsStart r
  | 8 => commonZeroFails r || kindZeroFails k r
  | 9 => failsAFunction k r
  | _ => false

section Checks
variable {ch : Channel} {k : Kind} {wide : Bool} {r : StepRecord}

theorem validate_eq_find (h : r.kindOf = some k) :
    validate ch wide r = (List.range 10).find? (failsCheck ch k wide r) := by
  have hrange : List.range 10 = [0, 1, 2, 3, 4, 5, 6, 7, 8, 9] := rfl
  simp only [validate, h, hrange, find?_cons_eq_if, List.find?_nil, failsCheck, Bool.false_eq_true, if_false]

theorem failsCheck_of_le {n : Nat} (h : 10 ≤ n) : failsCheck ch k wide r n = false := by
  unfold failsCheck
  split
  case h_9 => rfl
  all_goals omega

theorem validate_eq_none_iff (h : r.kindOf = some k) :
    validate ch wide r = none ↔ ∀ code, failsCheck ch k wide r code = false := by
  rw [validate_eq_find h, List.find?_eq_none]
  constructor
  · intro hnone code
    by_cases hcode : code < 10
    · simpa using hnone code (List.mem_range.2 hcode)
    · exact failsCheck_of_le (by omega)
  · exact fun hall code _ => by simp [hall code]

theorem validate_eq_some_iff (h : r.kindOf = some k) (code : Nat) :
    validate ch wide r = some code ↔
      failsCheck ch k wide r code = true ∧ ∀ n, n < code → failsCheck ch k wide r n = false := by
  rw [validate_eq_find h, List.find?_range_eq_some]
  constructor
  · rintro ⟨hfails, -, hbefore⟩
    exact ⟨hfails, fun n hn => by simpa using hbefore n hn⟩
  · rintro ⟨hfails, hbefore⟩
    have hcode : code < 10 := by
      by_contra hle
      rw [failsCheck_of_le (by omega)] at hfails
      exact Bool.false_ne_true hfails
    exact ⟨hfails, List.mem_range.2 hcode, fun n hn => by simp [hbefore n hn]⟩

theorem bit_pair_eq_one_or_two (p : BitVec 2) : ¬(p = 0 ∨ p = 3) ↔ p = 1 ∨ p = 2 := by
  decide +revert

theorem word_ne_zero_iff (v : Word32) : v ≠ 0 ↔ 1 ≤ v.toNat := by
  rw [Nat.one_le_iff_ne_zero, Ne, ← BitVec.toNat_inj]
  rfl

theorem failsClass_eq_false_iff : failsClass ch k = false ↔
    (ch.cls = some .output ↔ k = .tone ∨ k = .strobe ∨ k = .pwm ∨ k = .pdm ∨ k = .chime ∨ k = .level) := by
  cases k <;> simp [failsClass, Kind.isOutput]

theorem failsLine_eq_false_iff : failsLine ch k r = false ↔
    (k = .phase ∨ k = .position
      ∨ (k = .tone ∨ k = .strobe ∨ k = .pwm ∨ k = .pdm ∨ k = .chime ∨ k = .level) ∧ r.aFunction ≠ 0 →
      ch.aLine.isSome = true) := by
  cases k <;> simp [failsLine, Kind.isOutput, Option.isSome_iff_ne_none]

theorem failsRange_eq_false_iff : failsRange k wide r = false ↔
    (k ≠ .pdm → k ≠ .position → 1 ≤ r.top.toNat ∧ r.top.toNat ≤ greatestTop wide)
      ∧ (k = .strobe → r.cmp.toNat ≤ r.top.toNat)
      ∧ (k = .pwm ∨ k = .pdm → r.cmp.toNat ≤ r.top.toNat + 1)
      ∧ (k = .position → r.top.toNat ≤ greatestValue wide ∧ r.cmp.toNat ≤ greatestValue wide)
      ∧ (k = .level ∨ k = .period ∨ k = .width ∨ k = .count → r.polarity = 1 ∨ r.polarity = 2) := by
  rw [← bit_pair_eq_one_or_two, ← word_ne_zero_iff]
  cases k <;> simp [failsRange, topOutOfRange, cmpOutOfRange, Kind.hasPolarity, and_assoc]

theorem failsPrescale_eq_false_iff : failsPrescale r = false ↔ r.prescale.toNat ≤ 8 := by
  simp [failsPrescale]

theorem failsPdmTop_eq_false_iff : failsPdmTop k wide r = false ↔
    (k = .pdm → ∃ w, 1 ≤ w ∧ w ≤ (if wide then 32 else 16) ∧ r.top.toNat + 1 = 2 ^ w) := by
  rw [← pdmWidth_isSome_iff]
  cases k <;> simp [failsPdmTop, Option.isSome_iff_ne_none]

theorem failsStart_eq_false_iff : failsStart r = false ↔
    r.start.toNat ≤ 3 ∧ (r.start = 3 → r.markSource.toNat ≤ 7) ∧ (r.strict = true → r.start = 2) := by
  simp [failsStart, StepRecord.isOnMark, StepRecord.isAtTime, and_assoc]

theorem failsZeros_eq_false_iff : (commonZeroFails r || kindZeroFails k r) = false ↔
    r.zeroBit = false ∧ r.zeroHigh = 0 ∧ r.zeroMid = 0 ∧ r.zeroLow = 0
      ∧ (r.start ≠ 3 → r.markSource = 0 ∧ r.startTimeout = 0) ∧ (r.start ≠ 2 → r.startTime = 0)
      ∧ (¬(k = .strobe ∨ k = .pwm ∨ k = .pdm ∨ k = .position) → r.cmp = 0)
      ∧ (¬(k = .level ∨ k = .period ∨ k = .width ∨ k = .count) → r.polarity = 0)
      ∧ ((k = .tone ∨ k = .strobe ∨ k = .pwm ∨ k = .pdm ∨ k = .chime ∨ k = .level) ∨ k = .position →
          r.strikes = 0 ∧ r.quiet = false ∧ r.summary = false)
      ∧ (k ≠ .position → r.zeroPos = false)
      ∧ (¬(k = .tone ∨ k = .strobe ∨ k = .pwm ∨ k = .pdm ∨ k = .chime ∨ k = .level) → r.endPark = false) := by
  have hcommon : commonZeroFails r = false ↔ r.zeroBit = false ∧ r.zeroHigh = 0 ∧ r.zeroMid = 0 ∧ r.zeroLow = 0
      ∧ (r.start ≠ 3 → r.markSource = 0 ∧ r.startTimeout = 0) ∧ (r.start ≠ 2 → r.startTime = 0) := by
    simp only [commonZeroFails, StepRecord.isOnMark, StepRecord.isAtTime, Bool.or_eq_false_iff, bne_eq_false_iff_eq,
      Bool.and_eq_false_imp, bne_iff_ne, Bool.not_eq_false', beq_iff_eq]
    tauto
  rw [Bool.or_eq_false_iff, hcommon]
  cases k <;> simp [kindZeroFails, and_assoc]
  tauto

theorem failsAFunction_eq_false_iff : failsAFunction k r = false ↔
    (k = .chime → r.aFunction = 3)
      ∧ ((k = .tone ∨ k = .strobe ∨ k = .pwm ∨ k = .pdm ∨ k = .chime ∨ k = .level) → k ≠ .chime → r.aFunction ≠ 3)
      ∧ (¬(k = .tone ∨ k = .strobe ∨ k = .pwm ∨ k = .pdm ∨ k = .chime ∨ k = .level) → r.aFunction = 0) := by
  cases k <;> simp [failsAFunction]

theorem source_le_of_eq_zero (h : r.markSource = 0) : r.markSource.toNat ≤ 7 := by
  rw [h]
  decide

/-- A record is accepted where it passes the checks 2 to 9. -/
theorem validate_eq_none_iff_checks (h : r.kindOf = some k) : validate ch wide r = none ↔
    failsClass ch k = false ∧ failsLine ch k r = false ∧ failsRange k wide r = false ∧ failsPrescale r = false
      ∧ failsPdmTop k wide r = false ∧ failsStart r = false ∧ (commonZeroFails r || kindZeroFails k r) = false
      ∧ failsAFunction k r = false := by
  simp only [validate, h]
  generalize (commonZeroFails r || kindZeroFails k r) = zeros
  split_ifs <;> simp_all

theorem validate_wide_of_narrow (h : validate ch false r = none) : validate ch true r = none := by
  obtain hnone | ⟨k, hk⟩ := Option.eq_none_or_eq_some r.kindOf
  · simp [validate, hnone] at h
  · rw [validate_eq_none_iff_checks hk, failsRange_eq_false_iff, failsPdmTop_eq_false_iff] at h ⊢
    obtain ⟨hclass, hline, ⟨htop, hstrobe, hpwm, hposition, hpolarity⟩, hprescale, hpdm, hrest⟩ := h
    simp only [greatestTop, greatestValue, Bool.false_eq_true, if_false] at htop hposition hpdm
    simp only [greatestTop, greatestValue, if_true]
    refine ⟨hclass, hline, ⟨fun h1 h2 => ?_, hstrobe, hpwm, fun h1 => ?_, hpolarity⟩, hprescale, fun h1 => ?_, hrest⟩
    · obtain ⟨hlow, hhigh⟩ := htop h1 h2
      exact ⟨hlow, by omega⟩
    · obtain ⟨ha, hb⟩ := hposition h1
      exact ⟨by omega, by omega⟩
    · obtain ⟨w, hlow, hhigh, heq⟩ := hpdm h1
      exact ⟨w, hlow, by omega, heq⟩

end Checks

/-- Settles O8: each check, spelled out kind by kind, and the order in which they are made. -/
theorem recordsAreAcceptedExactly : Obligations.RecordsAreAcceptedExactly := by
  refine ⟨fun ch r => validate_wide_of_narrow, fun ch wide r hkind => ?_, fun ch wide r hkind hcls => ?_,
    fun ch wide r hkind => by simp only [validate, hkind], fun ch wide r k hkind hcls => ?_⟩
  · have hsource := source_le_of_eq_zero (r := r)
    rw [validate_eq_none_iff_checks hkind, failsClass_eq_false_iff, failsLine_eq_false_iff, failsRange_eq_false_iff,
      failsPrescale_eq_false_iff, failsPdmTop_eq_false_iff, failsStart_eq_false_iff, failsZeros_eq_false_iff,
      failsAFunction_eq_false_iff]
    simp [greatestTop]
    tauto
  · have hinput : ch.cls = some .input ↔ ¬ch.cls = some .output := by
      obtain ⟨cls, hcls⟩ := Option.isSome_iff_exists.1 hcls
      cases cls <;> simp [hcls]
    have hsource := source_le_of_eq_zero (r := r)
    rw [validate_eq_none_iff_checks hkind, failsClass_eq_false_iff, failsLine_eq_false_iff, failsRange_eq_false_iff,
      failsPrescale_eq_false_iff, failsPdmTop_eq_false_iff, failsStart_eq_false_iff, failsZeros_eq_false_iff,
      failsAFunction_eq_false_iff]
    simp [greatestTop, hinput]
    tauto
  · intro output readsCmp readsPolarity greatest passes
    have hpasses : ∀ code, passes code ↔ failsCheck ch k wide r code = false := fun code =>
      match code with
      | 0 | 1 => ⟨fun _ => rfl, fun _ => trivial⟩
      | 2 => failsClass_eq_false_iff.symm
      | 3 => failsLine_eq_false_iff.symm
      | 4 => failsRange_eq_false_iff.symm
      | 5 => failsPrescale_eq_false_iff.symm
      | 6 => failsPdmTop_eq_false_iff.symm
      | 7 => failsStart_eq_false_iff.symm
      | 8 => failsZeros_eq_false_iff.symm
      | 9 => failsAFunction_eq_false_iff.symm
      | _ + 10 => ⟨fun _ => rfl, fun _ => trivial⟩
    simp only [hpasses, Bool.not_eq_false]
    exact ⟨validate_eq_none_iff hkind, validate_eq_some_iff hkind⟩

end Sys2Proof.Machine
end

section
/-! PROOF. Administrative commands: the bits that each row names, and the order of the checks (R135, R137, R172). -/

namespace Sys2Proof.Machine

/-! ### The named bits (spec 12.3, R172) -/

theorem byteSpan_getLsbD {first last byte bit : Nat} (hfirst : 4 ≤ first) (hlow : 4 ≤ byte) (hhigh : byte ≤ 31)
    (hbit : bit < 8) : (byteSpan first last).getLsbD (8 * (byte - 4) + bit) = decide (first ≤ byte ∧ byte ≤ last) := by
  have hwidth : 8 * (byte - 4) + bit < 224 := by omega
  rw [byteSpan, BitVec.getLsbD_ofNat, decide_eq_true hwidth, Bool.true_and, Nat.testBit_mul_two_pow,
    Nat.testBit_two_pow_sub_one, ← Bool.decide_and, decide_eq_decide]
  omega

theorem lowBitOf_getLsbD {n byte bit : Nat} (hn : 4 ≤ n) (hlow : 4 ≤ byte) (hhigh : byte ≤ 31) (hbit : bit < 8) :
    (lowBitOf n).getLsbD (8 * (byte - 4) + bit) = decide (byte = n ∧ bit = 0) := by
  have hwidth : 8 * (byte - 4) + bit < 224 := by omega
  rw [lowBitOf, BitVec.getLsbD_ofNat, decide_eq_true hwidth, Bool.true_and, Nat.testBit_two_pow, decide_eq_decide]
  omega

/-- The table of spec 12.3: the row of the opcode names bit `bit` of byte `byte`. -/
def rowNames (opcode byte bit : Nat) : Prop :=
  match opcode with
  | 2 => byte = 4 ∨ byte = 5 ∧ bit = 0 ∨ 6 ≤ byte ∧ byte ≤ 15
  | 3 | 10 | 11 | 12 => byte = 4
  | 4 => byte = 4 ∨ byte = 5 ∧ bit = 0 ∨ 8 ≤ byte ∧ byte ≤ 11
  | 5 => byte = 4 ∨ byte = 5 ∧ bit = 0 ∨ byte = 6 ∨ byte = 7 ∨ byte = 14 ∨ byte = 15
  | 6 => 4 ≤ byte ∧ byte ≤ 7 ∨ byte = 8 ∧ bit = 0 ∨ 9 ≤ byte ∧ byte ≤ 17
  | 7 | 8 => byte = 4 ∨ byte = 5 ∨ 8 ≤ byte ∧ byte ≤ 11
  | 9 => byte = 4 ∨ byte = 16 ∨ byte = 17
  | 13 => byte = 4 ∨ 8 ≤ byte ∧ byte ≤ 11
  | 14 => byte = 4 ∨ byte = 5
  | _ => False

theorem namedBits_getLsbD (opcode : Nat) {byte bit : Nat} (hlow : 4 ≤ byte) (hhigh : byte ≤ 31) (hbit : bit < 8) :
    (namedBits opcode).getLsbD (8 * (byte - 4) + bit) = true ↔ rowNames opcode byte bit := by
  have span := fun (first last : Nat) (h : 4 ≤ first) => byteSpan_getLsbD (last := last) h hlow hhigh hbit
  have low := fun (n : Nat) (h : 4 ≤ n) => lowBitOf_getLsbD h hlow hhigh hbit
  match opcode with
  | 0 | 1 => simp [namedBits, rowNames]
  | 2 | 3 | 4 | 5 | 6 | 7 | 8 | 9 | 10 | 11 | 12 | 13 | 14 =>
    simp only [namedBits, rowNames, BitVec.getLsbD_or, Bool.or_eq_true, span _ _ (by decide : 4 ≤ 4),
      span _ _ (by decide : 4 ≤ 6), span _ _ (by decide : 4 ≤ 8), span _ _ (by decide : 4 ≤ 9),
      span _ _ (by decide : 4 ≤ 14), span _ _ (by decide : 4 ≤ 16), low _ (by decide : 4 ≤ 5),
      low _ (by decide : 4 ≤ 8), decide_eq_true_eq]
    omega
  | n + 15 => simp [namedBits, rowNames]

/-- Some bit of bytes 4 to 31 that the opcode's row does not name is set. -/
def rowStrays (r : CommandRecord) (opcode : Nat) : Prop :=
  ∃ byte bit, 4 ≤ byte ∧ byte ≤ 31 ∧ bit < 8 ∧ r.body.getLsbD (8 * (byte - 4) + bit) = true ∧ ¬rowNames opcode byte bit

theorem zerosHold_iff (r : CommandRecord) (opcode : Nat) :
    r.zerosHold opcode = true ↔ r.zero1 = 0 ∧ ¬rowStrays r opcode := by
  have hbody : (r.body &&& ~~~(namedBits opcode)) = 0 ↔ ¬rowStrays r opcode := by
    constructor
    · rintro hzero ⟨byte, bit, hlow, hhigh, hbit, hset, hunnamed⟩
      have hclear : (namedBits opcode).getLsbD (8 * (byte - 4) + bit) = false := by
        simpa using mt (namedBits_getLsbD opcode hlow hhigh hbit).1 hunnamed
      have hwidth : 8 * (byte - 4) + bit < 224 := by omega
      have hboth := congrArg (fun v => v.getLsbD (8 * (byte - 4) + bit)) hzero
      simp [-BitVec.getLsbD_eq_getElem, hset, hclear, hwidth] at hboth
    · intro hnone
      apply BitVec.eq_of_getLsbD_eq
      intro i hi
      have hplace : i = 8 * (i / 8 + 4 - 4) + i % 8 := by omega
      have hnamed := namedBits_getLsbD opcode (byte := i / 8 + 4) (bit := i % 8) (by omega) (by omega) (by omega)
      rw [← hplace] at hnamed
      by_cases hset : r.body.getLsbD i = true
      · have hrow : rowNames opcode (i / 8 + 4) (i % 8) := by
          by_contra hunnamed
          exact hnone ⟨i / 8 + 4, i % 8, by omega, by omega, by omega, by rwa [← hplace], hunnamed⟩
        simp [-BitVec.getLsbD_eq_getElem, hnamed.2 hrow]
      · simp [-BitVec.getLsbD_eq_getElem, hset]
  rw [CommandRecord.zerosHold, Bool.and_eq_true, beq_iff_eq, beq_iff_eq, hbody]

/-! ### Commands and their checks (R137) -/

/-- A command's effect, where each check of the list passes; else the command completes with the status of the first that
fails, and has no other effect. -/
def Part.checked (p : Part) (checks : List (Bool × AdminStatus)) (effect : Part) : Part :=
  if firstFailing checks = .ok then effect else p.complete (firstFailing checks) Results.zero

section Checked
variable {p effect : Part}

theorem Part.checked_nil : p.checked [] effect = effect := rfl

theorem Part.checked_cons {holds : Bool} {status : AdminStatus} {rest : List (Bool × AdminStatus)} (h : status ≠ .ok) :
    p.checked ((holds, status) :: rest) effect = if holds = true then p.checked rest effect else p.refuse status := by
  cases holds
  · simp [Part.checked, firstFailing, h, Part.refuse]
  · simp [Part.checked, firstFailing]

end Checked

section Command
variable {s : State} {n : Nat} {r : CommandRecord} {body : Clock → Part → Part}

/-- A command that puts no mark on the bus leaves its part with the arbiter's grant. -/
theorem State.onPart_command (h : s.part.port.answers .adminRead) (hz : r.zerosHold n = true) {q : Part}
    (hq : body s.clock (s.taken (BitVec.ofNat 8 n) r) = q) (hm : q.marks = s.part.marks) :
    (Host.Outcome.next (s.onPart fun k p => p.command k n r (body k)) : Host.Outcome State Fault Refusal)
      = .next (s.granted q) := by
  unfold State.onPart
  dsimp only
  rw [Part.command_live h hz]
  exact State.next_closeStep_quiet hq hm

theorem State.taken_marks (opcode : BitVec 8) : (s.taken opcode r).marks = s.part.marks := rfl

theorem State.onPart_refused (h : s.part.port.answers .adminRead) (hz : r.zerosHold n = true) {status : AdminStatus}
    (hq : body s.clock (s.taken (BitVec.ofNat 8 n) r) = (s.taken (BitVec.ofNat 8 n) r).refuse status) :
    (Host.Outcome.next (s.onPart fun k p => p.command k n r (body k)) : Host.Outcome State Fault Refusal)
      = .next (s.granted ((s.taken (BitVec.ofNat 8 n) r).complete status ⟨0, 0, 0, 0⟩)) :=
  State.onPart_command h hz hq (Part.complete_marks ..)

/-- A command whose body makes the checks of a list in their order. -/
theorem State.onPart_checked (h : s.part.port.answers .adminRead) (hz : r.zerosHold n = true)
    {checks : List (Bool × AdminStatus)} {effect : Part}
    (hq : body s.clock (s.taken (BitVec.ofNat 8 n) r) = (s.taken (BitVec.ofNat 8 n) r).checked checks effect)
    (hm : effect.marks = s.part.marks) :
    (firstFailing checks ≠ .ok →
      (Host.Outcome.next (s.onPart fun k p => p.command k n r (body k)) : Host.Outcome State Fault Refusal)
        = .next (s.granted ((s.taken (BitVec.ofNat 8 n) r).complete (firstFailing checks) ⟨0, 0, 0, 0⟩)))
      ∧ (firstFailing checks = .ok →
        (Host.Outcome.next (s.onPart fun k p => p.command k n r (body k)) : Host.Outcome State Fault Refusal)
          = .next (s.granted effect)) := by
  constructor
  · intro hfails
    exact State.onPart_refused h hz (hq.trans (if_neg hfails))
  · intro hok
    exact State.onPart_command h hz (hq.trans (if_pos hok)) hm

/-- A command with a bit set that its row does not name is refused, whatever its body (R172). -/
theorem State.onPart_zerosFail (h : s.part.port.answers .adminRead) (hz : r.zerosHold n = false) :
    (Host.Outcome.next (s.onPart fun k p => p.command k n r (body k)) : Host.Outcome State Fault Refusal)
      = .next (s.granted ((s.taken (BitVec.ofNat 8 n) r).complete .badParam ⟨0, 0, 0, 0⟩)) := by
  unfold State.onPart Part.command
  dsimp only
  rw [Part.answered_live h rfl (fun old ho => by cases old <;> simp_all [TxKind.alike])]
  refine State.next_closeStep_quiet ?_ (Part.complete_marks ..)
  simp only [hz]
  rfl

end Command

/-! ### Parameters out of range -/

section Range
variable {p : Part} {k : Clock} {r : CommandRecord}

theorem ringNumber_of_le {n : Nat} (h : 4 ≤ n) : ringNumber n = none := dif_neg (by omega)

theorem CommandRecord.channel_of_le (h : 8 ≤ r.byte 4) : r.channel = none := dif_neg (by omega)

theorem pairOf_of_le (h : 8 ≤ r.byte 4) : pairOf r = none := by
  unfold pairOf
  split
  case h_5 => rfl
  all_goals omega

theorem pairOf_of_odd (h : r.byte 4 % 2 = 1) : pairOf r = none := by
  unfold pairOf
  split
  case h_5 => rfl
  all_goals omega

end Range

/-- Settles O19: the masks of the rows are the table's bits, and each command looks up its ring, context, channel or pair
before any other check. -/
theorem nopAndRefusalsComplete : Obligations.NopAndRefusalsComplete := by
  unfold Obligations.NopAndRefusalsComplete
  intro named strays
  have hzeros : ∀ (r : CommandRecord) (opcode : Nat), r.zerosHold opcode = true ↔ r.zero1 = 0 ∧ ¬strays r opcode :=
    zerosHold_iff
  refine ⟨hzeros, fun s r h => ⟨fun hz => ?_, fun opcode hunknown => ?_, ?_⟩, fun s r h => ⟨?_, ?_⟩⟩
  · exact State.onPart_command (body := fun _ p => p.complete .ok Results.zero) h hz rfl (Part.complete_marks ..)
  · simp only [exec, execBadOpcode, hunknown, Bool.false_eq_true, if_false, State.onPart]
    rw [Part.answered_live h rfl (fun old ho => by cases old <;> simp_all [TxKind.alike])]
    exact State.next_closeStep_quiet rfl (Part.complete_marks ..)
  · intro n command hrow hstray
    have hz : r.zerosHold n = false := by
      rw [← Bool.not_eq_true, hzeros]
      rintro ⟨hzero, hnone⟩
      exact hstray.elim (fun hne => hne hzero) hnone
    simp only [List.mem_cons, List.not_mem_nil, or_false, Prod.mk.injEq] at hrow
    rcases hrow with ⟨rfl, rfl⟩ | ⟨rfl, rfl⟩ | ⟨rfl, rfl⟩ | ⟨rfl, rfl⟩ | ⟨rfl, rfl⟩ | ⟨rfl, rfl⟩ | ⟨rfl, rfl⟩ | ⟨rfl, rfl⟩
      | ⟨rfl, rfl⟩ | ⟨rfl, rfl⟩ | ⟨rfl, rfl⟩ | ⟨rfl, rfl⟩ | ⟨rfl, rfl⟩ | ⟨rfl, rfl⟩ <;>
      exact State.onPart_zerosFail h hz
  · intro n command limit hrow hz hlimit
    simp only [List.mem_cons, List.not_mem_nil, or_false, Prod.mk.injEq] at hrow
    rcases hrow with ⟨rfl, rfl, rfl⟩ | ⟨rfl, rfl, rfl⟩ | ⟨rfl, rfl, rfl⟩ | ⟨rfl, rfl, rfl⟩ | ⟨rfl, rfl, rfl⟩
      | ⟨rfl, rfl, rfl⟩ | ⟨rfl, rfl, rfl⟩ | ⟨rfl, rfl, rfl⟩ | ⟨rfl, rfl, rfl⟩ | ⟨rfl, rfl, rfl⟩ | ⟨rfl, rfl, rfl⟩
      | ⟨rfl, rfl, rfl⟩ <;> refine State.onPart_refused h hz ?_
    · simp only [Part.cqCreate, ringNumber_of_le hlimit]
    · simp only [Part.cqDelete, ringNumber_of_le hlimit]
    · simp only [Part.cqReset, ringNumber_of_le hlimit]
    · simp only [Part.cqNotice, show noticeNumber (r.byte 4) = none from dif_neg (by omega)]
    · simp only [Part.chOpen, CommandRecord.channel_of_le hlimit]
    · simp only [Part.chHalt, CommandRecord.channel_of_le hlimit]
    · simp only [Part.chClose, CommandRecord.channel_of_le hlimit]
    · simp only [Part.chResume, CommandRecord.channel_of_le hlimit]
    · simp only [Part.chRead, CommandRecord.channel_of_le hlimit]
    · simp only [Part.pairJoin, pairOf_of_le hlimit]
    · simp only [Part.pairSplit, pairOf_of_le hlimit]
    · simp only [Part.posSet, CommandRecord.channel_of_le hlimit]
  · intro n command hrow hz hodd
    simp only [List.mem_cons, List.not_mem_nil, or_false, Prod.mk.injEq] at hrow
    rcases hrow with ⟨rfl, rfl⟩ | ⟨rfl, rfl⟩ <;> refine State.onPart_refused h hz ?_
    · simp only [Part.pairJoin, pairOf_of_odd hodd]
    · simp only [Part.pairSplit, pairOf_of_odd hodd]

end Sys2Proof.Machine
end

section
/-! PROOF. The completion ring commands, CH_RESUME, POS_SET and LINE_PARK: the checks in their order, and the effects
(R120 to R122, R132, R143 to R146, R152, R155, R156). -/

namespace Sys2Proof.Machine

/-! ### Parameters in range -/

section Parameters
variable {r : CommandRecord}

theorem ringNumber_val {n : Nat} {q : RingId} (h : n = q.val) : ringNumber n = some q := by
  subst h
  exact dif_pos q.isLt

theorem noticeNumber_val {n : Nat} {i : NoticeId} (h : n = i.val) : noticeNumber n = some i := by
  subst h
  exact dif_pos i.isLt

theorem lineNumber_val {n : Nat} {i : LineId} (h : n = i.val) : lineNumber n = some i := by
  subst h
  exact dif_pos i.isLt

theorem CommandRecord_channel_val {c : ChanId} (h : r.byte 4 = c.val) : r.channel = some c := by
  have hlt : r.byte 4 < 8 := h ▸ c.isLt
  rw [CommandRecord.channel, dif_pos hlt]
  exact congrArg some (Fin.ext h)

theorem legalBase_eq (base : Word32) (size : Nat) :
    legalBase base size = decide (base.toNat % 32 = 0 ∧ base.toNat + size * 32 ≤ 2 ^ 32) := by
  rw [legalBase, Bool.decide_and]
  rfl

theorem noticeSettingsLegal_eq (r : CommandRecord) :
    noticeSettingsLegal r = decide (1 ≤ r.byte 7 ∧ r.byte 7 ≤ 64 ∧ r.byte 6 ≤ 3) := by
  rw [noticeSettingsLegal, ← Bool.decide_and, decide_eq_decide, and_assoc]

end Parameters

/-! ### Completion ring commands -/

section Rings
variable {p : Part} {r : CommandRecord} {q : RingId}

theorem Part.cqCreate_eq (h : r.byte 4 = q.val) : p.cqCreate r = p.checked
    [ (legalSize 16 4096 (r.half 12), .badParam)
    , (decide ((r.word 8).toNat % 32 = 0 ∧ (r.word 8).toNat + r.half 12 * 32 ≤ 2 ^ 32), .badParam)
    , (decide (1 ≤ r.byte 7 ∧ r.byte 7 ≤ 64 ∧ r.byte 6 ≤ 3), .badParam)
    , (decide (p.rings[q].state = .absent), .badState) ]
    (((p.setRing q (Ring.created (r.word 8) (r.half 12))).setNotice (noticeOf q) (noticeSettings r false)).complete .ok
      Results.zero) := by
  rw [← legalBase_eq, ← noticeSettingsLegal_eq]
  simp [Part.cqCreate, ringNumber_val h, Part.checked_cons, Part.checked_nil, ← Bool.not_eq_true, ite_not]

theorem Part.ringInUse_eq_false_iff : p.ringInUse q = false ↔ ∀ c : ChanId, p.chans[c].bound ≠ some q := by
  simp [ringInUse, mem_allChans]

theorem Part.cqDelete_eq (h : r.byte 4 = q.val) : p.cqDelete r =
    if p.rings[q].state = .ready ∧ (∀ c : ChanId, p.chans[c].bound ≠ some q) ∧ p.pool.lists[q] = [] then
      ((p.setRing q Ring.reset).setNotice (noticeOf q) Notice.reset).complete .ok (Results.one p.rings[q].outstanding)
    else p.refuse .badState := by
  simp only [Part.cqDelete, ringNumber_val h, ← ringInUse_eq_false_iff]
  split_ifs <;> simp_all

theorem Part.cqReset_eq (h : r.byte 4 = q.val) : p.cqReset r = p.checked
    [ (if r.bit 5 then decide ((r.word 8).toNat % 32 = 0 ∧ (r.word 8).toNat + p.rings[q].size * 32 ≤ 2 ^ 32)
        else decide (r.word 8 = 0), .badParam)
    , (decide (p.rings[q].state ≠ .absent), .badState) ]
    (if p.rings[q].inFlight then p.waitOnRing q else p.restart q) := by
  rw [← legalBase_eq]
  change _ = p.checked [(newBaseLegal r p.rings[q].size, .badParam), _] _
  simp [Part.cqReset, ringNumber_val h, Part.checked_cons, Part.checked_nil, ← Bool.not_eq_true, ite_not]

/-- A ring that no write of its own holds restarts as a ring with its base and size alone. -/
theorem Ring.restarted_eq {g : Ring} (h : g.inFlight = false) (newBase : Option Word32) : g.restarted newBase =
    { state := .ready, base := newBase.getD g.base, size := g.size, writeIndex := 0, phase := true, hostHead := 0
      outstanding := 0, inFlight := false, halfWritten := false } := by
  rw [restarted, h]

theorem newBaseOf_getD (r : CommandRecord) (base : Word32) :
    (newBaseOf r).getD base = if r.bit 5 then r.word 8 else base := by
  unfold newBaseOf
  split <;> rfl

theorem State.taken_current (s : State) (opcode : BitVec 8) (r : CommandRecord) :
    ∃ index, (s.taken opcode r).admin.current = some { opcode := opcode, record := r, index := index } := ⟨_, rfl⟩

theorem restart_taken {s : State} {opcode : BitVec 8} (h : (s.taken opcode r).rings[q].inFlight = false) :
    (s.taken opcode r).restart q = Part.complete
      { s.taken opcode r with
        rings := (s.taken opcode r).rings.set q
          { state := .ready, base := if r.bit 5 then r.word 8 else (s.taken opcode r).rings[q].base
            size := (s.taken opcode r).rings[q].size, writeIndex := 0, phase := true, hostHead := 0, outstanding := 0
            inFlight := false, halfWritten := false } } .ok
      ⟨BitVec.ofNat 32 (s.taken opcode r).pool.lists[q].length, 0, 0, 0⟩ := by
  rw [← newBaseOf_getD, ← Ring.restarted_eq h]
  rfl

theorem Part.noticeRingAbsent_eq (p : Part) (i : NoticeId) :
    (!p.noticeRingAbsent i) = decide (∀ q : RingId, q.val = i.val → p.rings[q].state ≠ .absent) := by
  unfold noticeRingAbsent
  by_cases hlt : i.val < 4
  · have hq : ringNumber i.val = some ⟨i.val, hlt⟩ := dif_pos hlt
    rw [hq, Bool.eq_iff_iff]
    simp only [Bool.not_eq_true', beq_eq_false_iff_ne, decide_eq_true_eq]
    exact ⟨fun hne q hval => by obtain rfl : q = ⟨i.val, hlt⟩ := Fin.ext hval; exact hne, fun hall => hall _ rfl⟩
  · have hnone : ringNumber i.val = none := dif_neg hlt
    rw [hnone, eq_comm]
    exact decide_eq_true fun q hval => absurd (hval ▸ q.isLt) hlt

theorem Part.cqNotice_eq {i : NoticeId} (h : r.byte 4 = i.val) : p.cqNotice r = p.checked
    [ (decide (1 ≤ r.byte 7 ∧ r.byte 7 ≤ 64 ∧ r.byte 6 ≤ 3), .badParam)
    , (decide (∀ q : RingId, q.val = i.val → p.rings[q].state ≠ .absent), .badState) ]
    ((p.setNotice i (noticeSettings r p.notices[i].pending)).complete .ok Results.zero) := by
  rw [← noticeSettingsLegal_eq, ← noticeRingAbsent_eq]
  simp [Part.cqNotice, noticeNumber_val h, Part.checked_cons, Part.checked_nil, ← Bool.not_eq_true, ite_not]

end Rings

/-- Settles O20: the checks of CQ_CREATE and CQ_DELETE, and the ring and notice context that each leaves. -/
theorem cqCreateAndDeleteCheckAndAct : Obligations.CqCreateAndDeleteCheckAndAct := by
  refine ⟨fun s r q h hz hq => ?_, fun s r q h hz hq => ?_⟩
  · exact State.onPart_checked (body := fun _ p => p.cqCreate r) h hz (Part.cqCreate_eq hq) (Part.complete_marks ..)
  · intro p free
    refine ⟨fun hbusy => ?_, fun hfree => ?_⟩
    · exact State.onPart_refused (body := fun _ p => p.cqDelete r) h hz ((Part.cqDelete_eq hq).trans (if_neg hbusy))
    · exact State.onPart_command (body := fun _ p => p.cqDelete r) h hz ((Part.cqDelete_eq hq).trans (if_pos hfree))
        (Part.complete_marks ..)

/-- Settles O21: the checks of CQ_RESET and CQ_NOTICE, the ring restarted or waited for, and the notice context. -/
theorem cqResetAndNoticeCheckAndAct : Obligations.CqResetAndNoticeCheckAndAct := by
  refine ⟨fun s r q h hz hq => ?_, fun s r i h hz hi => ?_⟩
  · intro p g status
    refine ⟨fun hfails => ?_, fun hok hidle => ?_, fun hok hbusy => ?_⟩
    · exact State.onPart_refused (body := fun _ p => p.cqReset r) h hz ((Part.cqReset_eq hq).trans (if_neg hfails))
    · refine State.onPart_command (body := fun _ p => p.cqReset r) h hz ?_ (Part.complete_marks ..)
      exact ((Part.cqReset_eq hq).trans (if_pos hok)).trans ((if_neg (by rw [hidle]; decide)).trans (restart_taken hidle))
    · refine State.onPart_command (body := fun _ p => p.cqReset r) h hz ?_ (State.taken_marks (r := r) 4)
      exact ((Part.cqReset_eq hq).trans (if_pos hok)).trans (if_pos hbusy)
  · exact State.onPart_checked (body := fun _ p => p.cqNotice r) h hz (Part.cqNotice_eq hi) (Part.complete_marks ..)

/-! ### CH_RESUME, POS_SET and LINE_PARK -/

section Channels
variable {p : Part} {r : CommandRecord} {c : ChanId}

theorem Part.chResume_eq (h : r.byte 4 = c.val) : p.chResume r = p.checked
    [ (decide (p.chans[c].state = .stopped), .badState)
    , (p.chans[c].pendingReport.isNone, .badState)
    , (decide (r.half 16 < p.chans[c].ringSize), .badParam) ]
    ((p.setChan c { p.chans[c] with state := .idle, fetchIndex := r.half 16, fetchFault := false }).complete .ok
      Results.zero) := by
  have hpending : p.chans[c].pendingReport.isSome = true ↔ ¬p.chans[c].pendingReport.isNone = true := by
    cases p.chans[c].pendingReport <;> simp
  simp only [Part.chResume, CommandRecord_channel_val h, Part.checked_cons (by decide : AdminStatus.badState ≠ .ok),
    Part.checked_cons (by decide : AdminStatus.badParam ≠ .ok), Part.checked_nil, decide_eq_true_eq, ne_eq, hpending,
    ite_not, ← Nat.not_lt]

theorem Part.wide_iff (p : Part) (c : ChanId) :
    p.wide c = true ↔ c.val % 2 = 0 ∧ ∀ j : Fin 4, evenOf j = c → p.pairs[j] = true := by
  rw [Part.wide, Bool.and_eq_true, beq_iff_eq]
  refine and_congr_right fun heven => ⟨fun hpair j hj => ?_, fun hall => ?_⟩
  · subst hj
    simpa [evenOf] using hpair
  · exact hall ⟨c.val / 2, by omega⟩ (Fin.ext (Nat.mul_div_cancel' (Nat.dvd_of_mod_eq_zero heven)))

theorem Part.posSet_eq (h : r.byte 4 = c.val) : p.posSet r = p.checked
    [ (decide (p.chans[c].state ≠ .closed ∧ p.chans[c].state ≠ .subordinate ∧ p.chans[c].cls = some .input), .badState)
    , (decide ((c.val % 2 = 0 ∧ ∀ j : Fin 4, evenOf j = c → p.pairs[j] = true) ∨ (r.word 8).toNat ≤ 65535), .badParam) ]
    ((p.setChan c { p.chans[c] with position := (r.word 8).toNat }).complete .ok (Results.one p.chans[c].position)) := by
  have hrange : greatestValue (p.wide c) < (r.word 8).toNat ↔
      ¬((c.val % 2 = 0 ∧ ∀ j : Fin 4, evenOf j = c → p.pairs[j] = true) ∨ (r.word 8).toNat ≤ 65535) := by
    rw [← Part.wide_iff]
    have hword := (r.word 8).isLt
    unfold greatestValue
    cases p.wide c <;> simp
    omega
  have hstate : (p.chans[c].state = .closed ∨ p.chans[c].state = .subordinate ∨ p.chans[c].cls ≠ some .input) ↔
      ¬(p.chans[c].state ≠ .closed ∧ p.chans[c].state ≠ .subordinate ∧ p.chans[c].cls = some .input) := by
    tauto
  simp only [Part.posSet, CommandRecord_channel_val h, Part.checked_cons (by decide : AdminStatus.badState ≠ .ok),
    Part.checked_cons (by decide : AdminStatus.badParam ≠ .ok), Part.checked_nil, decide_eq_true_eq, hstate, hrange, ite_not]

theorem parkOf_eq (r : CommandRecord) : parkOf r =
    if r.byte 5 = 0 ∨ 3 < r.byte 5 then none
    else some (if r.byte 5 = 1 then .low else if r.byte 5 = 2 then .high else .float) := by
  unfold parkOf
  split
  case h_4 =>
    have hout : r.byte 5 = 0 ∨ 3 < r.byte 5 := by
      simp only [imp_false] at *
      omega
    rw [if_pos hout]
  all_goals
    rename_i hbyte
    simp [hbyte]

end Channels

/-- Settles O27: the checks of CH_RESUME and the channel it resumes. -/
theorem chResumeChecksAndResumes : Obligations.ChResumeChecksAndResumes := by
  intro s r c h hz hc
  exact State.onPart_checked (body := fun _ p => p.chResume r) h hz (Part.chResume_eq hc) (Part.complete_marks ..)

/-- Settles O30: the checks of POS_SET at the channel's width, and the park level that LINE_PARK sets. -/
theorem posSetAndLineParkCheckAndSet : Obligations.PosSetAndLineParkCheckAndSet := by
  refine ⟨fun s r c h hz hc => ?_, fun s r h hz => ?_⟩
  · exact State.onPart_checked (body := fun _ p => p.posSet r) h hz (Part.posSet_eq hc) (Part.complete_marks ..)
  · refine ⟨fun hout => ?_, fun i hi hlow hhigh => ?_⟩
    · refine State.onPart_refused (body := fun _ p => p.linePark r) h hz ?_
      obtain hline | hpark := hout
      · have hnone : lineNumber (r.byte 4) = none := dif_neg (by omega)
        simp only [Part.linePark, hnone]
      · simp only [Part.linePark, parkOf_eq, if_pos hpark]
        cases lineNumber (r.byte 4) <;> rfl
    · have hin : ¬(r.byte 5 = 0 ∨ 3 < r.byte 5) := by omega
      refine State.onPart_command (body := fun _ p => p.linePark r) h hz ?_ (Part.complete_marks ..)
      simp only [Part.linePark, parkOf_eq, if_neg hin, lineNumber_val hi]
      rfl

end Sys2Proof.Machine
end

section
/-! PROOF. CH_OPEN, CH_READ, PAIR_JOIN and PAIR_SPLIT, and CH_HALT and CH_CLOSE of a STOPPED channel (R2, R22, R85, R86, R89,
R94, R95, R99, R147, R148, R151, R153). -/

namespace Sys2Proof.Machine

/-! ### CH_OPEN -/

section Open
variable {p : Part} {r : CommandRecord} {c : ChanId}

theorem classOf_eq (r : CommandRecord) : classOf r =
    if r.byte 5 = 1 ∨ r.byte 5 = 2 then some (if r.byte 5 = 1 then .output else .input) else none := by
  unfold classOf
  split
  case h_3 =>
    simp only [imp_false] at *
    rw [if_neg (by omega)]
  all_goals
    rename_i hbyte
    simp [hbyte]

theorem ringNumber_eq (n : Nat) : ringNumber n = if n < 4 then some (Fin.ofNat 4 n) else none := by
  unfold ringNumber
  split
  · exact congrArg some (Fin.ext (Nat.mod_eq_of_lt ‹_›).symm)
  · rfl

theorem lineNumber_eq (n : Nat) : lineNumber n = if n < 16 then some (Fin.ofNat 16 n) else none := by
  unfold lineNumber
  split
  · exact congrArg some (Fin.ext (Nat.mod_eq_of_lt ‹_›).symm)
  · rfl

/-- The a_line that a CH_OPEN names. -/
def aLineOf (r : CommandRecord) : Option LineId := if r.bit 8 then some (Fin.ofNat 16 (r.byte 7)) else none

theorem ofNat_line_inj {m n : Nat} (hm : m < 16) (hn : n < 16) : Fin.ofNat 16 m = Fin.ofNat 16 n ↔ m = n := by
  rw [Fin.ext_iff]
  change m % 16 = n % 16 ↔ m = n
  rw [Nat.mod_eq_of_lt hm, Nat.mod_eq_of_lt hn]

theorem claimsOf_eq (r : CommandRecord) : claimsOf r =
    if r.byte 6 < 16 then
      if (if r.bit 8 then decide (r.byte 7 < 16 ∧ r.byte 7 ≠ r.byte 6) else decide (r.byte 7 = 0)) = true then
        some (Fin.ofNat 16 (r.byte 6), aLineOf r)
      else none
    else none := by
  unfold claimsOf aLineOf
  rw [lineNumber_eq, lineNumber_eq]
  by_cases hb : r.byte 6 < 16
  · by_cases hbit : r.bit 8 = true
    · by_cases ha : r.byte 7 < 16
      · simp only [hb, hbit, ha, if_true, ofNat_line_inj ha hb]
        by_cases heq : r.byte 7 = r.byte 6 <;> simp [heq]
      · simp [hb, hbit, ha]
    · simp [hb, hbit]
  · simp [hb]

/-- The lines that a CH_OPEN names. -/
def linesOf (r : CommandRecord) : List LineId :=
  [Fin.ofNat 16 (r.byte 6)] ++ if r.bit 8 then [Fin.ofNat 16 (r.byte 7)] else []

theorem mem_linesOf {i : LineId} : i ∈ linesOf r ↔ some (Fin.ofNat 16 (r.byte 6)) = some i ∨ aLineOf r = some i := by
  unfold linesOf aLineOf
  split <;> simp [eq_comm]

theorem Part.lineOwned_iff {line : Option LineId} :
    p.lineOwned line = true ↔ ∃ i, line = some i ∧ p.lines[i].owner ≠ none := by
  cases line <;> simp [lineOwned, Option.isSome_iff_ne_none]

theorem Part.linesBusy_iff : ((if r.byte 5 = 1 then ChClass.output else .input) = .output
      ∧ (p.lineOwned (some (Fin.ofNat 16 (r.byte 6))) || p.lineOwned (aLineOf r)) = true) ↔
    ¬(r.byte 5 = 1 → ∀ i ∈ linesOf r, p.lines[i].owner = none) := by
  have howned : (p.lineOwned (some (Fin.ofNat 16 (r.byte 6))) || p.lineOwned (aLineOf r)) = true ↔
      ∃ i ∈ linesOf r, p.lines[i].owner ≠ none := by
    simp only [Bool.or_eq_true, Part.lineOwned_iff, mem_linesOf, or_and_right, exists_or]
  have hclass : (if r.byte 5 = 1 then ChClass.output else .input) = .output ↔ r.byte 5 = 1 := by
    split <;> simp_all
  rw [howned, hclass]
  simp

/-- The part once a CH_OPEN that passes its checks has been carried out. -/
def Part.openedBy (p : Part) (r : CommandRecord) (c : ChanId) : Part :=
  p.openChannel c (if r.byte 5 = 1 then .output else .input) (Fin.ofNat 16 (r.byte 6)) (aLineOf r)
    (Fin.ofNat 4 (r.byte 9)) r

theorem Part.chOpen_eq (h : r.byte 4 = c.val) : p.chOpen r = p.checked
    [ (decide (r.byte 5 = 1 ∨ r.byte 5 = 2), .badParam)
    , (decide (r.byte 9 < 4), .badParam)
    , (legalSize 4 1024 (r.half 10), .badParam)
    , (decide ((r.word 12).toNat % 32 = 0 ∧ (r.word 12).toNat + r.half 10 * 32 ≤ 2 ^ 32), .badParam)
    , (decide (r.half 16 < r.half 10), .badParam)
    , (decide (r.byte 6 < 16), .badParam)
    , (if r.bit 8 then decide (r.byte 7 < 16 ∧ r.byte 7 ≠ r.byte 6) else decide (r.byte 7 = 0), .badParam)
    , (decide (p.chans[c].state = .closed), .badState)
    , (p.chans[c].pendingReport.isNone, .badState)
    , (decide (p.rings[(Fin.ofNat 4 (r.byte 9) : RingId)].state = .ready), .badState)
    , (decide (r.byte 5 = 1 → ∀ i ∈ linesOf r, p.lines[i].owner = none), .lineBusy) ]
    ((p.openedBy r c).complete .ok Results.zero) := by
  rw [← legalBase_eq]
  simp only [Part.checked_cons (by decide : AdminStatus.badState ≠ .ok), Part.checked_nil,
    Part.checked_cons (by decide : AdminStatus.badParam ≠ .ok), Part.checked_cons (by decide : AdminStatus.lineBusy ≠ .ok)]
  unfold Part.chOpen
  rw [CommandRecord_channel_val h, classOf_eq, ringNumber_eq, claimsOf_eq]
  have hpending : p.chans[c].pendingReport.isSome = true ↔ ¬p.chans[c].pendingReport.isNone = true := by
    cases p.chans[c].pendingReport <;> simp
  generalize (if r.bit 8 then decide (r.byte 7 < 16 ∧ r.byte 7 ≠ r.byte 6) else decide (r.byte 7 = 0)) = aLegal
  by_cases hclass : r.byte 5 = 1 ∨ r.byte 5 = 2
  · by_cases hring : r.byte 9 < 4
    · by_cases hclaims : r.byte 6 < 16 ∧ aLegal = true
      · obtain ⟨hb, rfl⟩ := hclaims
        simp only [hclass, hring, hb, decide_true, if_true, Part.linesBusy_iff, hpending, Bool.not_eq_true',
          ← Bool.not_eq_true, ite_not, ← Nat.not_lt, decide_eq_true_eq, ne_eq, Part.openedBy]
      · have hnone : (if r.byte 6 < 16 then if aLegal = true then some ((Fin.ofNat 16 (r.byte 6) : LineId), aLineOf r)
            else none else none) = none := by
          by_cases hb : r.byte 6 < 16
          · rw [if_pos hb, if_neg fun ha => hclaims ⟨hb, ha⟩]
          · exact if_neg hb
        rw [hnone]
        by_cases hb : r.byte 6 < 16
        · have ha : aLegal = false := by simpa [hb] using hclaims
          simp [hclass, hring, hb, ha]
        · simp [hclass, hring, hb]
    · simp [hclass, hring]
  · simp [hclass]

end Open

theorem firstFailing_cons_ok {holds : Bool} {status : AdminStatus} {rest : List (Bool × AdminStatus)}
    (h : status ≠ .ok) : firstFailing ((holds, status) :: rest) = .ok ↔ holds = true ∧ firstFailing rest = .ok := by
  cases holds <;> simp [firstFailing, h]

/-- A channel's claim on two lines, entry by entry. -/
theorem updateLine_pair_getElem {v : Vector LineEntry 16} {b a : Option LineId} {f : LineEntry → LineEntry}
    (differ : ∀ i, b = some i → a ≠ some i) (i : LineId) :
    (updateLine (updateLine v b f) a f)[i] = if b = some i ∨ a = some i then f v[i] else v[i] := by
  rw [updateLine_getElem, updateLine_getElem]
  by_cases hb : b = some i
  · simp [hb, differ i hb]
  · simp [hb]

/-- Settles O22: CH_OPEN's checks, and the claims and context that an accepted command sets. -/
theorem chOpenChecksAndOpens : Obligations.ChOpenChecksAndOpens := by
  intro s r c h hz hc p lines status
  have hchecked := State.onPart_checked (body := fun _ p => p.chOpen r) h hz (Part.chOpen_eq hc) (Part.complete_marks ..)
  refine ⟨hchecked.1, fun hok => ⟨(p.openedBy r c).lines, fun i => ?_, hchecked.2 hok⟩⟩
  have hlegal : r.byte 6 < 16 ∧ (r.bit 8 = true → r.byte 7 < 16 ∧ r.byte 7 ≠ r.byte 6) := by
    simp only [status, firstFailing_cons_ok (by decide : AdminStatus.badParam ≠ .ok)] at hok
    obtain ⟨-, -, -, -, -, hb, ha, -⟩ := hok
    refine ⟨of_decide_eq_true hb, fun hbit => ?_⟩
    rw [if_pos hbit] at ha
    exact of_decide_eq_true ha
  have differ : ∀ j : LineId, some (Fin.ofNat 16 (r.byte 6)) = some j → aLineOf r ≠ some j := by
    rintro j ⟨⟩ ha
    unfold aLineOf at ha
    split at ha
    · obtain ⟨ha16, hne⟩ := hlegal.2 ‹_›
      exact hne ((ofNat_line_inj ha16 hlegal.1).1 (Option.some.inj ha))
    · cases ha
  have hmem : i ∈ lines ↔ some (Fin.ofNat 16 (r.byte 6)) = some i ∨ aLineOf r = some i := mem_linesOf
  simp only [Part.openedBy, Part.openChannel, updateLine_pair_getElem differ, hmem]
  refine ite_congr rfl (fun _ => ?_) fun _ => rfl
  unfold LineEntry.claim
  split <;> simp_all

/-! ### CH_READ -/

theorem Channel.snapshot_fields (ch : Channel) (reserved : Bool) :
    (ch.snapshot reserved).word0.extractLsb' 0 3 = ch.state.code
      ∧ (ch.snapshot reserved).word0.extractLsb' 3 2 = classCode ch.cls
      ∧ (ch.snapshot reserved).word0.extractLsb' 5 4 =
          (match ch.active with | some e => e.record.kind.setWidth 4 | none => 0)
      ∧ (ch.snapshot reserved).word0.extractLsb' 9 3 = BitVec.ofNat 3 ch.depth
      ∧ (ch.snapshot reserved).word0.extractLsb' 12 10 = BitVec.ofNat 10 ch.fetchIndex
      ∧ (ch.snapshot reserved).word0.extractLsb' 22 10 = BitVec.ofNat 10 ch.tail
      ∧ (ch.snapshot reserved).word1.extractLsb' 0 16 = (match ch.active with | some e => e.record.tag | none => 0)
      ∧ (ch.snapshot reserved).word1.extractLsb' 16 8 = ch.seq
      ∧ (ch.snapshot reserved).word1.getLsbD 24 = ch.pendingReport.isSome
      ∧ (ch.snapshot reserved).word1.getLsbD 25 = reserved ∧ (ch.snapshot reserved).word1.getLsbD 26 = ch.fetchFault
      ∧ (ch.snapshot reserved).word1.getLsbD 27 = ch.halt.isSome
      ∧ (ch.snapshot reserved).word1.getLsbD 28 = ch.fetchInFlight
      ∧ (ch.snapshot reserved).word1.extractLsb' 29 3 = 0 := by
  unfold snapshot
  generalize ch.depth = depth
  generalize ch.pendingReport.isSome = pending
  generalize ch.halt.isSome = halted
  generalize ch.state.code = state
  generalize classCode ch.cls = cls
  cases ch.active <;> dsimp only <;> refine ⟨?_, ?_, ?_, ?_, ?_, ?_, ?_, ?_, ?_, ?_, ?_, ?_, ?_, ?_⟩ <;>
    simp [BitVec.extractLsb'_append_eq_of_le, BitVec.extractLsb'_append_eq_right, BitVec.getLsbD_append, -Nat.reduceAdd,
      -BitVec.getLsbD_eq_getElem]

theorem ChState.toNat_code (state : ChState) : state.code.toNat = (match state with
    | .closed => 0 | .idle => 1 | .waiting => 2 | .active => 3 | .held => 4 | .stopped => 5 | .subordinate => 6) := by
  cases state <;> rfl

theorem toNat_classCode (cls : Option ChClass) :
    (classCode cls).toNat = (match cls with | none => 0 | some .output => 1 | some .input => 2) := by
  rcases cls with _ | ⟨⟨⟩⟩ <;> rfl

theorem Channel.depth_eq (ch : Channel) : ch.depth = ch.window.length := by
  unfold depth window
  cases ch.active <;> simp [Nat.add_comm]

/-- Settles O28: the fields of the snapshot, read back from the result words. -/
theorem chReadReturnsTheSnapshot : Obligations.ChReadReturnsTheSnapshot := by
  intro s r c h hz hc p ch hfetch htail hdepth
  have hread : p.chRead r = p.complete .ok (ch.snapshot (p.pool.reservedBusy c)) := by
    simp only [Part.chRead, CommandRecord_channel_val hc]
    rfl
  obtain ⟨hstate, hcls, hkind, hdepth', hfetch', htail', htag, hseq, hpending, hreserved, hfault, hhalt, hflight, hzero⟩ :=
    ch.snapshot_fields (p.pool.reservedBusy c)
  refine ⟨ch.snapshot (p.pool.reservedBusy c), State.onPart_command (body := fun _ p => p.chRead r) h hz hread
    (Part.complete_marks ..), (congrArg BitVec.toNat hstate).trans ch.state.toNat_code,
    (congrArg BitVec.toNat hcls).trans (toNat_classCode ch.cls), fun e he hsmall => ?_,
    fun hnone => ?_, ?_, ?_, ?_, hseq, hpending, hreserved, hfault, hhalt, hflight, hzero, rfl, rfl⟩
  · rw [hkind, htag, he]
    exact ⟨by rw [BitVec.toNat_setWidth]; exact Nat.mod_eq_of_lt hsmall, rfl⟩
  · rw [hkind, htag, hnone]
    exact ⟨rfl, rfl⟩
  · rw [hdepth', ch.depth_eq, BitVec.toNat_ofNat]
    exact Nat.mod_eq_of_lt (by omega)
  · rw [hfetch', BitVec.toNat_ofNat]
    exact Nat.mod_eq_of_lt hfetch
  · rw [htail', BitVec.toNat_ofNat]
    exact Nat.mod_eq_of_lt htail

end Sys2Proof.Machine
end

section
/-! PROOF. PAIR_JOIN and PAIR_SPLIT, and CH_HALT and CH_CLOSE of a STOPPED channel (R22, R89, R94, R95, R99, R148, R151). -/

namespace Sys2Proof.Machine

/-! ### Pairs -/

theorem pairOf_even {r : CommandRecord} {j : Fin 4} (h : r.byte 4 = 2 * j.val) : pairOf r = some (j, evenOf j, oddOf j) := by
  unfold pairOf
  rw [h]
  fin_cases j <;> rfl

theorem Channel.atRest_iff (ch : Channel) : ch.atRest = true ↔ ch.state = .closed ∨ ch.state = .stopped := by
  simp [atRest]

section Pairs
variable {p : Part} {r : CommandRecord} {j : Fin 4}

theorem Part.pairJoin_eq (h : r.byte 4 = 2 * j.val) : p.pairJoin r =
    if (p.chans[evenOf j].state = .closed ∨ p.chans[evenOf j].state = .stopped) ∧ p.chans[oddOf j].state = .closed
        ∧ p.chans[oddOf j].pendingReport = none then
      Part.complete { p with
        pairs := p.pairs.set j true, chans := p.chans.set (oddOf j) (p.chans[oddOf j].blank .subordinate) } .ok
        Results.zero
    else p.refuse .badState := by
  simp only [Part.pairJoin, pairOf_even h, Bool.and_eq_true, Channel.atRest_iff, beq_iff_eq, Option.isNone_iff_eq_none,
    and_assoc]
  rfl

theorem Part.pairSplit_eq (h : r.byte 4 = 2 * j.val) : p.pairSplit r =
    if p.pairs[j] = true ∧ (p.chans[evenOf j].state = .closed ∨ p.chans[evenOf j].state = .stopped) then
      Part.complete { p with
        pairs := p.pairs.set j false
        chans := (p.chans.set (oddOf j) (p.chans[oddOf j].blank .closed)).set (evenOf j) p.chans[evenOf j].narrowed } .ok
        Results.zero
    else p.refuse .badState := by
  simp only [Part.pairSplit, pairOf_even h, Bool.and_eq_true, Channel.atRest_iff]
  rfl

end Pairs

/-- Settles O29: the checks of PAIR_JOIN and PAIR_SPLIT, and the two channels that each leaves. -/
theorem pairCommandsJoinAndSplit : Obligations.PairCommandsJoinAndSplit := by
  intro s r j h hz hj p u even odd rest blank
  have hz12 : r.zerosHold 12 = true := hz
  refine ⟨fun hjoin => ?_, fun hrefuse => ?_, fun hsplit => ?_, fun hrefuse => ?_⟩
  · exact State.onPart_command (body := fun _ p => p.pairJoin r) h hz ((Part.pairJoin_eq hj).trans (if_pos hjoin))
      (Part.complete_marks ..)
  · exact State.onPart_refused (body := fun _ p => p.pairJoin r) h hz ((Part.pairJoin_eq hj).trans (if_neg hrefuse))
  · exact State.onPart_command (body := fun _ p => p.pairSplit r) h hz12 ((Part.pairSplit_eq hj).trans (if_pos hsplit))
      (Part.complete_marks ..)
  · exact State.onPart_refused (body := fun _ p => p.pairSplit r) h hz12 ((Part.pairSplit_eq hj).trans (if_neg hrefuse))

/-! ### CH_HALT and CH_CLOSE: the checks -/

section Halt
variable {p : Part} {k : Clock} {r : CommandRecord} {c : ChanId}

theorem modeOf_none (h : r.byte 5 ≠ 1 ∧ r.byte 5 ≠ 2) : modeOf r = none := by
  obtain ⟨h1, h2⟩ := h
  unfold modeOf
  split
  · exact absurd ‹_› h1
  · exact absurd ‹_› h2
  · rfl

theorem exists_modeOf (h : r.byte 5 = 1 ∨ r.byte 5 = 2) : ∃ boundary, modeOf r = some boundary := by
  unfold modeOf
  obtain h | h := h
  · exact ⟨false, by rw [h]; rfl⟩
  · exact ⟨true, by rw [h]; rfl⟩

theorem Part.chHalt_noMode (h : r.byte 5 ≠ 1 ∧ r.byte 5 ≠ 2) : p.chHalt k r = p.refuse .badParam := by
  simp only [chHalt, modeOf_none h]
  cases r.channel <;> rfl

theorem Part.chClose_noMode (h : r.byte 5 ≠ 1 ∧ r.byte 5 ≠ 2) : p.chClose k r = p.refuse .badParam := by
  simp only [chClose, modeOf_none h]
  cases r.channel <;> rfl

theorem Part.chHalt_shut {boundary : Bool} (hc : r.byte 4 = c.val) (hmode : modeOf r = some boundary)
    (h : p.chans[c].state = .closed ∨ p.chans[c].state = .subordinate) : p.chHalt k r = p.refuse .badState := by
  simp only [chHalt, CommandRecord_channel_val hc, hmode]
  rcases h with h | h <;> simp only [h]

theorem Part.chClose_shut {boundary : Bool} (hc : r.byte 4 = c.val) (hmode : modeOf r = some boundary)
    (h : p.chans[c].state = .closed ∨ p.chans[c].state = .subordinate) : p.chClose k r = p.refuse .badState := by
  simp only [chClose, CommandRecord_channel_val hc, hmode]
  rcases h with h | h <;> simp only [h]

theorem Part.chHalt_stopped {boundary : Bool} (hc : r.byte 4 = c.val) (hmode : modeOf r = some boundary)
    (h : p.chans[c].state = .stopped) : p.chHalt k r = p.complete .ok (noReportWords p.chans[c].fetchIndex) := by
  simp only [chHalt, CommandRecord_channel_val hc, hmode, h]

/-- The context of a STOPPED channel that closes (R22). -/
def Channel.closedFromStop (ch : Channel) : Channel :=
  { ch with
    state := .closed, cls := none, bLine := none, aLine := none, queue := []
    armed := .none, evaluation := .none, halt := none
    bound := if ch.pendingReport.isSome then ch.bound else none
    stale := ch.stale || ch.fetchInFlight }

theorem Part.chClose_stopped {boundary : Bool} (hc : r.byte 4 = c.val) (hmode : modeOf r = some boundary)
    (h : p.chans[c].state = .stopped) : p.chClose k r = Part.complete
      { p with
        lines := updateLine (updateLine p.lines p.chans[c].bLine (LineEntry.release c)) p.chans[c].aLine
          (LineEntry.release c)
        chans := p.chans.set c p.chans[c].closedFromStop } .ok
      (noReportWords p.chans[c].fetchIndex) := by
  have hstate : (p.view c).ch.state = .stopped := h
  simp only [chClose, CommandRecord_channel_val hc, hmode, h, Part.atUnit, UnitView.takeHalt, hstate]
  rfl

end Halt

/-- Settles O23: the checks of CH_HALT and CH_CLOSE, and the channel that closes from STOPPED. -/
theorem haltAndCloseOfAStoppedChannel : Obligations.HaltAndCloseOfAStoppedChannel := by
  intro s r c h hz hc p u ch words
  have hz8 : r.zerosHold 8 = true := hz
  refine ⟨fun hmode => ⟨?_, ?_⟩, fun hbyte hshut => ?_, fun hbyte hstopped hlines => ?_⟩
  · exact State.onPart_refused (body := fun k p => p.chHalt k r) h hz (Part.chHalt_noMode hmode)
  · exact State.onPart_refused (body := fun k p => p.chClose k r) h hz8 (Part.chClose_noMode hmode)
  · obtain ⟨boundary, hmode⟩ := exists_modeOf hbyte
    exact ⟨State.onPart_refused (body := fun k p => p.chHalt k r) h hz (Part.chHalt_shut hc hmode hshut),
      State.onPart_refused (body := fun k p => p.chClose k r) h hz8 (Part.chClose_shut hc hmode hshut)⟩
  · obtain ⟨boundary, hmode⟩ := exists_modeOf hbyte
    refine ⟨State.onPart_command (body := fun k p => p.chHalt k r) h hz (Part.chHalt_stopped hc hmode hstopped)
      (Part.complete_marks ..), _,
      fun i => updateLine_pair_getElem (v := u.lines) (f := LineEntry.release c) hlines i, ?_⟩
    exact State.onPart_command (body := fun k p => p.chClose k r) h hz8 (Part.chClose_stopped hc hmode hstopped)
      (Part.complete_marks ..)

end Sys2Proof.Machine
end

section
/-! PROOF. The port arbiter: the order in which it grants, who asks, and what a grant sets (R5, R114 to R117, R134, R138,
R157 to R161). -/

namespace Sys2Proof.Machine

/-! ### Rotation -/

/-- The numbers of `n` requesters, from `start` on and wrapping. -/
def rotated {n : Nat} [NeZero n] (start : Fin n) : List (Fin n) := (List.finRange n).map (start + ·)

section Rotation
variable {n : Nat} [NeZero n] {start q : Fin n}

/-- The first requester in rotation order is found. -/
theorem find_rotated {asks : Fin n → Bool} (hq : asks q = true)
    (first : ∀ d, asks d = true → (q - start).val ≤ (d - start).val) : (rotated start).find? asks = some q := by
  rw [List.find?_eq_some_iff_getElem]
  have hlen : (q - start).val < (rotated start).length := by simp [rotated]
  have hget : ∀ (j : Nat) (hj : j < (rotated start).length), ((rotated start)[j] - start).val = j := fun j hj => by
    simp [rotated]
  refine ⟨hq, (q - start).val, hlen, ?_, fun j hj => ?_⟩
  · have hval : (rotated start)[(q - start).val] - start = q - start := Fin.ext (hget _ hlen)
    exact sub_left_injective hval
  · rw [Bool.not_eq_true']
    by_contra hasks
    have hle := first _ ((Bool.not_eq_false _).mp hasks)
    rw [hget j (by omega)] at hle
    omega

theorem findSome_map_eq {α β : Type} (f : α → Option β) (l : List α) :
    (l.findSome? fun a => (f a).map fun b => (a, b)) =
      (l.find? fun a => (f a).isSome).bind fun a => (f a).map fun b => (a, b) := by
  induction l with
  | nil => rfl
  | cons a rest ih => cases h : f a <;> simp [h, ih]

end Rotation

theorem Port.ringOrder_eq (t : Port) : t.ringOrder = rotated (t.writePointer + 1) := by
  unfold ringOrder rotated
  generalize t.writePointer = w
  revert w
  decide

theorem chansAfter_eq (c : ChanId) : chansAfter c = rotated (c + 1) := by
  revert c
  decide

/-! ### The arbiter (R159) -/

section Arbiter
variable {p : Part} {tb : Ticks}

theorem Part.grant_acq {e : AcqEntry} (idle : p.port.current = none) (h : p.admin.asksWrite = some e) :
    p.grant tb = p.grantAcq tb e := by
  simp only [Part.grant, idle, h]

theorem Part.grant_entry {q : RingId} {e : Entry} {part : EntryPart} (idle : p.port.current = none)
    (hacq : p.admin.asksWrite = none) (h : p.ringAsks q = some (e, part))
    (first : ∀ d : RingId, p.ringAsks d ≠ none →
      (q - (p.port.writePointer + 1)).val ≤ (d - (p.port.writePointer + 1)).val) :
    p.grant tb = p.grantEntry tb q e part := by
  have hfind : (rotated (p.port.writePointer + 1)).find? (fun q => (p.ringAsks q).isSome) = some q :=
    find_rotated (by rw [h]; rfl) fun d hd => first d (Option.isSome_iff_ne_none.1 hd)
  have hfound : p.port.ringOrder.findSome? (fun q => (p.ringAsks q).map fun a => (q, a)) = some (q, e, part) := by
    rw [findSome_map_eq, p.port.ringOrder_eq, hfind]
    simp [h]
  simp only [Part.grant, idle, hacq, hfound]

theorem Part.findRing_none (hring : ∀ q : RingId, p.ringAsks q = none) :
    p.port.ringOrder.findSome? (fun q => (p.ringAsks q).map fun a => (q, a)) = none := by
  rw [List.findSome?_eq_none_iff]
  intro q _
  rw [hring]
  rfl

theorem Part.grant_step {c : ChanId} (idle : p.port.current = none) (hacq : p.admin.asksWrite = none)
    (hring : ∀ q : RingId, p.ringAsks q = none) (h : p.chans[c].eligible = true)
    (first : ∀ d : ChanId, p.chans[d].eligible = true →
      (c - (p.port.fetchPointer + 1)).val ≤ (d - (p.port.fetchPointer + 1)).val) : p.grant tb = p.grantStep tb c := by
  have hfind : (chansAfter p.port.fetchPointer).find? (fun c => p.chans[c].eligible) = some c := by
    rw [chansAfter_eq]
    exact find_rotated h first
  simp only [Part.grant, idle, hacq, Part.findRing_none hring, hfind]

theorem Part.grant_other (idle : p.port.current = none) (hacq : p.admin.asksWrite = none)
    (hring : ∀ q : RingId, p.ringAsks q = none) (hchan : ∀ c : ChanId, p.chans[c].eligible = false) :
    p.grant tb = if p.asksAdminRead then p.grantAdminRead tb
      else if p.asksConfigRead then p.grantConfig tb else p := by
  have hfind : (chansAfter p.port.fetchPointer).find? (fun c => p.chans[c].eligible) = none := by
    rw [List.find?_eq_none]
    intro c _
    rw [hchan]
    exact Bool.false_ne_true
  simp only [Part.grant, idle, hacq, Part.findRing_none hring, hfind]

end Arbiter

/-- Settles O31: the arbiter looks at the requesters in rotation order. -/
theorem arbiterGrantsInOrder : Obligations.ArbiterGrantsInOrder := by
  refine fun p tb => ⟨fun hbusy => ?_, fun idle => ⟨fun e => Part.grant_acq idle, fun hacq q e part => Part.grant_entry idle hacq,
    fun hacq hring c => Part.grant_step idle hacq hring, fun hacq hring => Part.grant_other idle hacq hring⟩⟩
  obtain ⟨tx, htx⟩ := Option.isSome_iff_exists.1 hbusy
  simp only [Part.grant, htx]

/-! ### Requests (R5, R114 to R117, R134, R138, R158, R160) -/

theorem Channel.eligible_iff (ch : Channel) : ch.eligible = true ↔
    (ch.state = .idle ∨ ch.state = .waiting ∨ ch.state = .active ∨ ch.state = .held)
      ∧ ch.halt = none ∧ ch.fetchFault = false ∧ ch.fetchInFlight = false ∧ ch.window.length < 4
      ∧ ch.fetchIndex ≠ ch.tail := by
  rw [← ch.depth_eq]
  simp [eligible, and_assoc, or_assoc]

theorem Part.asksAdminRead_iff (p : Part) : p.asksAdminRead = true ↔
    p.device.state = .running ∧ p.admin.unit = .idle ∧ p.admin.fetchIndex ≠ p.admin.tail := by
  simp only [asksAdminRead, Bool.and_eq_true, beq_iff_eq, bne_iff_ne]
  tauto

theorem Part.asksConfigRead_iff (p : Part) :
    p.asksConfigRead = true ↔ p.device.state = .starting ∧ p.device.configGranted = false := by
  simp [asksConfigRead]

theorem Admin.asksWrite_eq_some_iff {a : Admin} {e : AcqEntry} : a.asksWrite = some e ↔
    a.unit = .posting ∧ 1 ≤ a.acqSize - 1 - a.acqOutstanding ∧ a.completion = some e := by
  unfold asksWrite
  split
  · next h => exact ⟨fun he => ⟨h.1, h.2, he⟩, fun he => he.2.2⟩
  · next h => exact ⟨nofun, fun he => absurd ⟨he.1, he.2.1⟩ h⟩

theorem Ring.nextPart_iff {g : Ring} {e : Entry} {part : EntryPart} :
    ((g.nextPart e).1 = part ∧ (g.nextPart e).2 ≤ g.free) ↔
      (part = .single ∧ e.isLong = false ∧ 1 ≤ g.size - 1 - g.outstanding
        ∨ part = .stats ∧ e.isLong = true ∧ g.halfWritten = true ∧ 1 ≤ g.size - 1 - g.outstanding
        ∨ part = .longFirst ∧ e.isLong = true ∧ g.halfWritten = false ∧ g.writeIndex + 1 ≠ g.size
            ∧ 2 ≤ g.size - 1 - g.outstanding
        ∨ part = .pad ∧ e.isLong = true ∧ g.halfWritten = false ∧ g.writeIndex + 1 = g.size
            ∧ 3 ≤ g.size - 1 - g.outstanding) := by
  unfold nextPart free
  cases hlong : e.isLong
  · simp [eq_comm (a := part)]
  · cases hhalf : g.halfWritten
    · by_cases hlast : g.writeIndex + 1 = g.size <;> simp [hlast, eq_comm (a := part)]
    · simp [eq_comm (a := part)]

theorem Part.ringAsks_eq_some_iff {p : Part} {q : RingId} {e : Entry} {part : EntryPart} :
    p.ringAsks q = some (e, part) ↔
      ∃ st rest, p.pool.lists[q] = st :: rest ∧ st.entry = e ∧ p.rings[q].state = .ready ∧ p.rings[q].inFlight = false
        ∧ ((p.rings[q].nextPart e).1 = part ∧ (p.rings[q].nextPart e).2 ≤ p.rings[q].free) := by
  unfold ringAsks
  cases hl : p.pool.lists[q] with
  | nil => simp
  | cons st rest =>
    constructor
    · intro h
      dsimp only at h
      split at h
      · next hc =>
        cases h
        exact ⟨st, rest, rfl, rfl, hc.1, hc.2.1, rfl, hc.2.2⟩
      · cases h
    · rintro ⟨_, _, ⟨⟩, rfl, hready, hflight, rfl, hfree⟩
      exact if_pos ⟨hready, hflight, hfree⟩

/-- Settles O32: the requests, and the grants block by block. -/
theorem grantsSetTheTransaction : Obligations.GrantsSetTheTransaction := by
  refine ⟨fun p tb c => ⟨Channel.eligible_iff _, p.asksAdminRead_iff, p.asksConfigRead_iff, rfl, rfl, rfl⟩,
    fun p tb q e part => ⟨?_, rfl, fun a => ⟨Admin.asksWrite_eq_some_iff, rfl⟩⟩⟩
  rw [← Ring.nextPart_iff]
  exact Part.ringAsks_eq_some_iff

end Sys2Proof.Machine
end

section
/-! PROOF. Entry and ACQ writes that end, the notice unit, and the answers of the admin and configuration reads (R118, R122,
R125 to R128, R135, R138, R140, R145, R162, R166, R167). -/

namespace Sys2Proof.Machine

/-! ### The notice unit (R125 to R128) -/

theorem Notice.startTimer_eq (n : Notice) (tb : Ticks) : n.startTimer tb = { n with
    timer := if n.unnoticed = 0 ∧ n.holdOff ≠ 0 ∧ n.timer = none then some (tb + BitVec.ofNat 48 (64 * n.holdOff))
      else n.timer } := by
  unfold startTimer
  split <;> rfl

theorem Notice.countEntry_raised {n : Notice} {urgent : Bool} (h : n.unnoticed + 1 = n.threshold ∨ urgent = true)
    (tb : Ticks) : n.countEntry tb urgent = { n with unnoticed := 0, timer := none, pending := true } := by
  unfold countEntry
  rw [startTimer_eq]
  exact if_pos h

theorem Notice.countEntry_counted {n : Notice} {urgent : Bool} (h : n.unnoticed + 1 ≠ n.threshold) (hu : urgent = false)
    (tb : Ticks) : n.countEntry tb urgent = { n with
      unnoticed := n.unnoticed + 1
      timer := if n.unnoticed = 0 ∧ n.holdOff ≠ 0 ∧ n.timer = none
        then some (tb + BitVec.ofNat 48 (64 * n.holdOff)) else n.timer } := by
  unfold countEntry
  rw [startTimer_eq]
  exact if_neg fun hor => hor.elim h (by rw [hu]; exact Bool.false_ne_true)

theorem Entry.isUrgent_iff (e : Entry) : e.isUrgent = true ↔
    match e.draft.body with
    | .fault _ => True
    | .flush .. => True
    | .stepDone b => b.status = .badStep ∨ b.status = .noSignal ∨ b.status = .markTimeout ∨ b.status = .lateSkipped
    | .capture .. => False
    | .wrap .. => False
    | .threshold .. => False := by
  obtain ⟨⟨channel, time, body⟩, seq, missed⟩ := e
  cases body with
  | stepDone b => cases hs : b.status <;> simp [isUrgent, DoneStatus.isUrgent, hs]
  | capture | wrap | threshold | flush | fault => simp [isUrgent]

theorem exec_noticeTimerExpiry (s : State) (i : NoticeId) : exec (.noticeTimerExpiry i) s = .next (s.withPart
    (if s.part.notices[i].timer = some s.tb then s.part.setNotice i s.part.notices[i].raise else s.part)) := by
  have hdue : s.part.notices[i].timerDue s.clock = true ↔ s.part.notices[i].timer = some s.tb := beq_iff_eq
  simp only [← hdue]
  rfl

/-- Settles O41: counting an entry and raising a notice, case by case. -/
theorem noticeCountsAnEntry : Obligations.NoticeCountsAnEntry := by
  refine ⟨Entry.isUrgent_iff, fun n tb urgent => ⟨fun h => Notice.countEntry_raised h tb, fun h hu =>
    Notice.countEntry_counted h hu tb, fun s i => ⟨fun hdue => ?_, fun hdue => ?_⟩⟩⟩
  · rw [exec_noticeTimerExpiry, if_pos hdue]
    rfl
  · rw [exec_noticeTimerExpiry, if_neg hdue]
    rfl

/-! ### Answers that put no mark on the bus -/

theorem State.onPart_answered {s : State} {kind : TxKind} {handler : Clock → TxKind → Option (Part → Part)}
    {f : Part → Part} {q : Part} (h : s.part.port.answers kind) (hf : handler s.clock kind = some f)
    (only : ∀ old, (handler s.clock old).isSome = true → old.alike kind = true)
    (hq : f s.part.endTransaction = q) (hm : q.marks = s.part.marks) :
    (Host.Outcome.next (s.onPart fun k p => p.answered k (handler k)) : Host.Outcome State Fault Refusal)
      = .next (s.granted q) := by
  unfold State.onPart
  dsimp only
  rw [Part.answered_live h hf only]
  exact State.next_closeStep_quiet hq hm

/-! ### Writes (R118, R122, R125, R126, R138, R145) -/

theorem Part.restartIfWaiting_of_not {p : Part} {q : RingId} (h : ¬(p.admin.unit = .waiting ∧ p.admin.waitingOn = .ring q)) :
    p.restartIfWaiting q = p := if_neg h

theorem Part.restartIfWaiting_current {p : Part} {q : RingId} {c : Command} (hunit : p.admin.unit = .waiting)
    (hwait : p.admin.waitingOn = .ring q) (hcurrent : p.admin.current = some c) :
    p.restartIfWaiting q = (p.setRing q (p.rings[q].restarted (newBaseOf c.record))).complete .ok
      (Results.one p.pool.lists[q].length) := by
  rw [restartIfWaiting, if_pos ⟨hunit, hwait⟩, restart, hcurrent]

theorem alike_of_isSome_entryWrite {β : Type} {f : RingId → EntryPart → β} {q : RingId} {part : EntryPart} {old : TxKind}
    (h : (match old with
      | .entryWrite q part => some (f q part)
      | .stepRead _ | .acqWrite | .adminRead | .configRead => none : Option β).isSome = true) :
    old.alike (.entryWrite q part) = true := by
  cases old with
  | entryWrite => rfl
  | stepRead | acqWrite | adminRead | configRead => cases h

/-- Settles O39: the ring alone moves; where a CQ_RESET waits, the failed ring is restarted. -/
theorem entryWriteErrorFaultsTheRing : Obligations.EntryWriteErrorFaultsTheRing := by
  intro s q part h p g
  refine ⟨fun hwait => ?_, fun c hunit hwait hcurrent => ?_⟩
  · refine State.onPart_answered h rfl (fun _ => alike_of_isSome_entryWrite) ?_ rfl
    exact Part.restartIfWaiting_of_not (p := p.writeFailed q) hwait
  · refine State.onPart_answered h rfl (fun _ => alike_of_isSome_entryWrite) ?_ (Part.complete_marks ..)
    refine (Part.restartIfWaiting_current (p := p.writeFailed q) hunit hwait hcurrent).trans ?_
    rw [← newBaseOf_getD]
    simp only [Part.writeFailed, Part.setRing, Ring.restarted]
    simp
    rfl

/-- Settles O40: the completed command is counted as context 4, and the unit is IDLE. -/
theorem acqWriteCompletesTheCommand : Obligations.AcqWriteCompletesTheCommand := by
  intro s h p a
  refine State.onPart_answered h rfl (fun old hold => by cases old <;> simp_all [TxKind.alike]) ?_ rfl
  have hurgent : (match a.completion with | some e => e.status != .ok | none => false) =
      a.completion.any fun e => decide (e.status ≠ .ok) := by
    cases a.completion with
    | none => rfl
    | some e => cases hs : e.status <;> simp [hs]
  unfold Part.acqDone
  rw [← hurgent]
  rfl

/-! ### Admin and configuration reads (R135, R140, R162, R166, R167) -/

theorem exec_adminReadError {s : State} (h : s.part.port.answers .adminRead) :
    exec .adminReadError s = .next (s.granted (s.part.endTransaction.adminFaults .adminRead)) :=
  State.onPart_answered h rfl (fun old hold => by cases old <;> simp_all [TxKind.alike]) rfl rfl

theorem exec_acqWriteError {s : State} (h : s.part.port.answers .acqWrite) :
    exec .acqWriteError s = .next (s.granted (s.part.endTransaction.adminFaults .acqWrite)) :=
  State.onPart_answered h rfl (fun old hold => by cases old <;> simp_all [TxKind.alike]) rfl rfl

theorem exec_configReadError {s : State} (h : s.part.port.answers .configRead) :
    exec .configReadError s = .next (s.granted (s.part.endTransaction.adminFaults .configRead)) :=
  State.onPart_answered h rfl (fun old hold => by cases old <;> simp_all [TxKind.alike]) rfl rfl

theorem Part.configured_marks (p : Part) (b : ConfigBlock) : (p.configured b).marks = p.marks := by
  unfold configured
  split <;> rfl

theorem exec_configReadReturn {s : State} (h : s.part.port.answers .configRead) (w : BitVec 512) :
    exec (.configReadReturn w) s = .next (s.granted (s.part.endTransaction.configured (ConfigBlock.ofBytes w))) :=
  State.onPart_answered h rfl (fun old hold => by cases old <;> simp_all [TxKind.alike]) rfl (Part.configured_marks ..)

namespace ConfigBlock
variable {b : ConfigBlock}

/-- The first check of R166: version 1, and zeros outside the named fields. -/
def VersionGood (b : ConfigBlock) : Prop := b.version = 1 ∧ b.zerosHold = true

/-- A ring of the block has a legal size and a legal base. -/
def RingGood (base : Word32) (size : Nat) : Prop :=
  legalSize 4 256 size = true ∧ base.toNat % 32 = 0 ∧ base.toNat + size * 32 ≤ 2 ^ 32

theorem ringGood_iff {base : Word32} {size : Nat} :
    (!(legalSize 4 256 size && legalBase base size)) = true ↔ ¬RingGood base size := by
  rw [Bool.not_eq_true', ← Bool.not_eq_true, Bool.and_eq_true, legalBase_eq, decide_eq_true_eq]
  rfl

theorem versionGood_iff : (b.version ≠ 1 || !b.zerosHold) = true ↔ ¬b.VersionGood := by
  unfold VersionGood
  simp
  tauto

theorem firstFailure_version (h : ¬b.VersionGood) : b.firstFailure = some .configVersion := if_pos (versionGood_iff.2 h)

theorem firstFailure_adminRing (h : b.VersionGood) (ring : ¬RingGood b.adminBase b.adminSize) :
    b.firstFailure = some .configAdminRing :=
  (if_neg (mt versionGood_iff.1 (not_not.2 h))).trans (if_pos (ringGood_iff.2 ring))

theorem firstFailure_acq (h : b.VersionGood) (ring : RingGood b.adminBase b.adminSize)
    (acq : ¬RingGood b.acqBase b.acqSize) : b.firstFailure = some .configAcq :=
  (if_neg (mt versionGood_iff.1 (not_not.2 h))).trans
    ((if_neg (mt ringGood_iff.1 (not_not.2 ring))).trans (if_pos (ringGood_iff.2 acq)))

theorem firstFailure_none (h : b.VersionGood) (ring : RingGood b.adminBase b.adminSize)
    (acq : RingGood b.acqBase b.acqSize) : b.firstFailure = none :=
  (if_neg (mt versionGood_iff.1 (not_not.2 h))).trans
    ((if_neg (mt ringGood_iff.1 (not_not.2 ring))).trans (if_neg (mt ringGood_iff.1 (not_not.2 acq))))

theorem versionGood_ofBytes (w : BitVec 512) : (ofBytes w).VersionGood ↔
    w.extractLsb' 0 16 = 1 ∧ w.extractLsb' 16 16 = 0 ∧ w.extractLsb' 80 16 = 0 ∧ w.extractLsb' 144 368 = 0 := by
  have hversion : (w.extractLsb' 0 16).toNat = 1 ↔ w.extractLsb' 0 16 = 1 := by
    rw [← BitVec.toNat_inj]
    rfl
  simp only [VersionGood, ofBytes, hversion, Bool.and_eq_true, beq_iff_eq, and_assoc]

end ConfigBlock

/-- Settles O42: the checks of the block in their order, and the causes. -/
theorem deviceReadsRunOrFault : Obligations.DeviceReadsRunOrFault := by
  refine ⟨fun s => ⟨exec_adminReadError, exec_acqWriteError, exec_configReadError⟩, fun s w h => ?_⟩
  intro p adminBase adminSize acqBase acqSize ringGood good1 faulted
  have hgood : good1 ↔ (ConfigBlock.ofBytes w).VersionGood := (ConfigBlock.versionGood_ofBytes w).symm
  rw [exec_configReadReturn h, hgood]
  unfold Part.configured
  refine ⟨fun hversion => ?_, fun hversion hring => ?_, fun hversion hring hacq => ?_, fun hversion hring hacq => ?_⟩
  · rw [ConfigBlock.firstFailure_version hversion]
    rfl
  · rw [ConfigBlock.firstFailure_adminRing hversion hring]
    rfl
  · rw [ConfigBlock.firstFailure_acq hversion hring hacq]
    rfl
  · rw [ConfigBlock.firstFailure_none hversion hring hacq]
    rfl

end Sys2Proof.Machine
end

section
/-! PROOF. Transactions that are discarded or reach their response limit, and late answers (R161 to R163, log entries 12
and 37). -/

namespace Sys2Proof.Machine

/-! ### Every answer of the bus is one operation -/

/-- A well-formed answer to transactions of a kind hands its result to the handler of that kind. -/
theorem exec_answer {i : Instr} {kind : TxKind} (hi : i.wellFormed = true) (hkind : answeredKind i = some kind) (s : State) :
    ∃ handler : TxKind → Option (Part → Part),
      exec i s = .next (s.withPart (s.part.answered s.clock handler))
        ∧ (∀ old, (handler old).isSome = old.alike kind)
        ∧ (i = .acqWriteError ∨ i = .adminReadError ∨ i = .configReadError ∨ i = .stepReadError ∨ i = .entryWriteError →
            ∀ old, old.alike kind = true → handler old = some fun p => p.failed s.clock old) := by
  cases i with
  | badOpcode opcode r =>
    cases hkind
    have hunknown : knownOpcode opcode = false := by simpa [Instr.wellFormed] using hi
    refine ⟨_, if_neg (by simp [hunknown]), fun old => ?_, by simp⟩
    cases old <;> rfl
  | stepReadReturn | entryWriteDone | acqWriteDone | configReadReturn | nop | cqCreate | cqDelete | cqReset | cqNotice | chOpen
    | chHalt | chClose | chResume | chRead | pairJoin | pairSplit | posSet | linePark =>
    cases hkind
    refine ⟨_, rfl, fun old => ?_, by simp⟩
    cases old <;> rfl
  | stepReadError | entryWriteError | acqWriteError | adminReadError | configReadError =>
    cases hkind
    refine ⟨_, rfl, fun old => ?_, fun _ old hold => ?_⟩
    · cases old <;> rfl
    · cases old with
      | stepRead | entryWrite | acqWrite | adminRead | configRead => cases hold <;> rfl
  | _ => cases hkind

theorem TxKind.alike_congr {a b : TxKind} (h : a.alike b = true) (old : TxKind) : old.alike a = old.alike b := by
  cases a <;> cases b <;> cases h <;> cases old <;> rfl

theorem TxKind.alike_self (kind : TxKind) : kind.alike kind = true := by cases kind <;> rfl

section Answers
variable {p : Part} {k : Clock} {t : Transaction} {kind : TxKind} {handler : TxKind → Option (Part → Part)}

/-- The result of a discarded transaction goes to no block (R163). -/
theorem Part.ended_discarded (ht : p.port.current = some t) (hd : p.port.discard = true)
    (hf : (handler t.kind).isSome = true) : p.ended k handler = p.endTransaction.closeStep k p.marks := by
  obtain ⟨f, hf⟩ := Option.isSome_iff_exists.1 hf
  simp [Part.ended, ht, hf, hd]

theorem Part.ended_discarded_grant (ht : p.port.current = some t) (hd : p.port.discard = true)
    (hf : (handler t.kind).isSome = true) : p.ended k handler = p.endTransaction.grant k.tb :=
  (Part.ended_discarded ht hd hf).trans (Part.closeStep_quiet (p := p.endTransaction) rfl k)

theorem Port.carries_of_current (ht : p.port.current = some t) (hd : p.port.discard = false) : p.port.carries t.kind :=
  ⟨hd, by rw [ht]; rfl⟩

theorem Port.limitDue_of_current (ht : p.port.current = some t) : p.port.limitDue k = true ↔ t.limit = k.tb := by
  simp [Port.limitDue, ht]

theorem Port.awaitsLate_iff (only : ∀ old, (handler old).isSome = old.alike kind) :
    p.port.awaitsLate handler = true ↔ p.port.lateLike kind := by
  simp only [Port.awaitsLate, List.any_eq_true, only]

theorem Part.ignoreLate_eq (only : ∀ old, (handler old).isSome = old.alike kind) :
    p.ignoreLate handler = { p with port := p.port.lateIgnored kind } := by
  have hfun : (fun old => (handler old).isSome) = fun old => old.alike kind := funext only
  unfold Part.ignoreLate Port.lateIgnored
  rw [hfun]

/-- An answer that may belong to the outstanding transaction or to a withdrawn one of a like kind (log entry 37). -/
theorem Part.answered_either (ht : p.port.current = some t) (late : p.port.lateLike t.kind)
    (only : ∀ old, (handler old).isSome = old.alike t.kind) :
    p.answered k handler = (p.noteChoice true).ignoreLate handler
      ∨ p.answered k handler = (p.noteChoice true).ended k handler := by
  have hlate : p.port.awaitsLate handler = true := (Port.awaitsLate_iff only).2 late
  have htaken : p.port.takenBy handler = true := by
    simp only [Port.takenBy, ht, only, TxKind.alike_self]
  simp only [Part.answered, hlate, htaken, if_true]
  split
  · exact .inl rfl
  · exact .inr rfl

theorem Part.withdrawn_eq (ht : p.port.current = some t) :
    ({ p with port := p.port.withdraws } : Part).endTransaction = { p with port := { p.port with
      current := none, discard := false, withdrawn := p.port.withdrawn ++ [t.kind] } } := by
  simp [Part.endTransaction, Port.withdraws, ht]

end Answers

theorem exec_responseLimitExpiry (s : State) :
    exec .responseLimitExpiry s = .next (s.withPart (s.part.limitExpiry s.clock)) := rfl

/-- Settles O43: a discarded transaction ends with its result handed to no block, a live one at its limit as an error, and
a late answer is ignored. -/
theorem discardAndResponseLimitEndTransactions : Obligations.DiscardAndResponseLimitEndTransactions := by
  refine ⟨fun s t ht hd => ?_, fun s t ht hd => ?_, fun s i kind hi hkind hlate hother => ?_,
    fun s t i kind ht hlate hi hkind halike hwhich => ?_⟩
  · intro ended
    refine ⟨?_, fun hlimit => ?_, fun hlate i kind hi hkind halike => ?_⟩
    · change Host.Outcome.next (s.withPart (s.part.discardedEnd s.clock)) = _
      rw [Part.discardedEnd, if_pos hd, Part.ended_discarded_grant ht hd rfl]
      rfl
    · rw [exec_responseLimitExpiry, Part.limitExpiry, if_pos ((Port.limitDue_of_current ht).2 hlimit),
        Part.ended_discarded_grant (p := { s.part with port := s.part.port.withdraws }) ht hd rfl, Part.withdrawn_eq ht]
      rfl
    · obtain ⟨handler, hexec, honly, -⟩ := exec_answer hi hkind s
      have hwith : ∀ old, (handler old).isSome = old.alike t.kind := fun old =>
        (honly old).trans (TxKind.alike_congr halike old)
      rw [hexec, Part.answered_of_not_late hlate (fun old hold => (hwith old).symm.trans hold),
        Part.ended_discarded_grant ht hd ((hwith _).trans (TxKind.alike_self _))]
      rfl
  · intro errorEnds
    refine ⟨fun hlimit => ?_, fun hlimit => ?_, fun hlate => ?_⟩
    · rw [exec_responseLimitExpiry, Part.limitExpiry, if_neg fun hdue => hlimit ((Port.limitDue_of_current ht).1 hdue)]
      rfl
    · have hcarries := Port.carries_of_current (p := { s.part with port := s.part.port.withdraws }) ht hd
      rw [exec_responseLimitExpiry, Part.limitExpiry, if_pos ((Port.limitDue_of_current ht).2 hlimit),
        Part.ended_live hcarries rfl, Part.withdrawn_eq ht]
    · have error : ∀ {i : Instr} {kind : TxKind}, i.wellFormed = true → answeredKind i = some kind →
          kind.alike t.kind = true →
          (i = .acqWriteError ∨ i = .adminReadError ∨ i = .configReadError ∨ i = .stepReadError ∨ i = .entryWriteError) →
          exec i s = errorEnds s.part.port.withdrawn := by
        intro i kind hi hkind halike hwhich
        obtain ⟨handler, hexec, honly, hfailed⟩ := exec_answer hi hkind s
        have hwith : ∀ old, (handler old).isSome = old.alike t.kind := fun old =>
          (honly old).trans (TxKind.alike_congr halike old)
        have hf := hfailed hwhich t.kind ((TxKind.alike_congr halike _).trans (TxKind.alike_self _))
        rw [hexec, Part.answered_of_not_late hlate (fun old hold => (hwith old).symm.trans hold),
          Part.ended_live (Port.carries_of_current ht hd) hf]
        rfl
      intro failed
      exact ⟨fun c h => error rfl rfl (by rw [h]; rfl) (by simp), fun q part h => error rfl rfl (by rw [h]; rfl) (by simp),
        fun h => error rfl rfl (by rw [h]; rfl) (by simp), fun h => error rfl rfl (by rw [h]; rfl) (by simp),
        fun h => error rfl rfl (by rw [h]; rfl) (by simp)⟩
  · obtain ⟨handler, hexec, honly, -⟩ := exec_answer hi hkind s
    have htaken : s.part.port.takenBy handler = false := by
      unfold Port.takenBy
      split
      · next t ht => rw [honly, hother t (by simp [ht])]
      · rfl
    rw [hexec, Part.answered_late ((Port.awaitsLate_iff honly).2 hlate) htaken, Part.ignoreLate_eq honly]
  · obtain ⟨handler, hexec, honly, hfailed⟩ := exec_answer hi hkind s
    have hwith : ∀ old, (handler old).isSome = old.alike t.kind := fun old =>
      (honly old).trans (TxKind.alike_congr halike old)
    intro p
    obtain hignored | hended := Part.answered_either (k := s.clock) ht hlate hwith
    · left
      rw [hexec, hignored, Part.ignoreLate_eq hwith]
      rfl
    · right
      rw [hexec, hended]
      cases hd : s.part.port.discard with
      | true =>
        rw [Part.ended_discarded (p := s.part.noteChoice true) ht hd ((hwith _).trans (TxKind.alike_self _))]
        rfl
      | false =>
        have hf := hfailed (by simpa [hd] using hwhich) t.kind ((TxKind.alike_congr halike _).trans (TxKind.alike_self _))
        rw [Part.ended_live (p := s.part.noteChoice true) (Port.carries_of_current (p := s.part.noteChoice true) ht hd) hf]
        rfl

end Sys2Proof.Machine
end

section
/-! PROOF. From here to the end, what the events of the channel units, the answers and the halt requests leave. The proofs are
elaborated one after another: side by side they take more memory than the check allows. -/
set_option Elab.async false

section
/-! PROOF. The turns of a channel unit, one by one, and the part that an event leaves when its unit has taken its last turn
(R3, R8, R10 to R14, R18, R25, R67). -/

namespace Sys2Proof.Machine

/-! ### One turn -/

namespace UnitView
variable {x : UnitContext} {u v : UnitView} {e a : Step} {rest : List Step}

section Turn
variable (steps : u.ch.noSteps = false)
include steps

theorem turn_arm (hqueue : u.ch.queue = e :: rest) (harmed : u.ch.armed = .none) : u.turn x = some (u.arm x e) := by
  simp only [turn, steps, hqueue, harmed, Bool.false_eq_true, if_false]

theorem turn_remove {status : DoneStatus} {value : Nat} {time : Ticks} (hqueue : u.ch.queue = e :: rest)
    (harmed : u.ch.armed = .removal status value time) (hstage : u.canStage x = true) :
    u.turn x = some (u.remove x e status value time) := by
  simp only [turn, steps, hqueue, harmed, Bool.false_eq_true, if_false, hstage, if_true]

theorem turn_removal_waits {status : DoneStatus} {value : Nat} {time : Ticks} (hqueue : u.ch.queue = e :: rest)
    (harmed : u.ch.armed = .removal status value time) (hstage : u.canStage x = false) : u.turn x = none := by
  simp only [turn, steps, hqueue, harmed, Bool.false_eq_true, if_false, hstage]

theorem turn_begin (hqueue : u.ch.queue = e :: rest) (harmed : u.ch.armed = .good) (hactive : u.ch.active = none)
    (hevaluation : u.ch.evaluation = .none) : u.turn x = some (u.beginStart x e) := by
  simp only [turn, steps, hqueue, harmed, hactive, hevaluation, Bool.false_eq_true, if_false, if_true]

theorem turn_evaluates (hqueue : u.ch.queue = e :: rest) (harmed : u.ch.armed = .good) (hactive : u.ch.active = none)
    (hevaluation : u.ch.evaluation ≠ .none) : u.turn x = none := by
  simp only [turn, steps, hqueue, harmed, hactive, hevaluation, Bool.false_eq_true, if_false]

theorem turn_runs_on (hqueue : u.ch.queue = e :: rest) (harmed : u.ch.armed = .good) (hactive : u.ch.active = some a)
    (himmediate : e.record.start ≠ 1) (hcontinuous : ¬(a.record.kindOf = some .position ∧ a.record.count = 0)) :
    u.turn x = none := by
  have hnot : e.record.isImmediate = false := by simpa [StepRecord.isImmediate] using himmediate
  have hstays : (a.record.isKind .position && a.record.continuous) = false := by
    rw [← Bool.not_eq_true, Bool.and_eq_true]
    simpa [StepRecord.isKind, StepRecord.continuous] using hcontinuous
  simp only [turn, steps, hqueue, harmed, hactive, Bool.false_eq_true, if_false, hnot, hstays]

theorem turn_preempt (hqueue : u.ch.queue = e :: rest) (harmed : u.ch.armed = .good) (hactive : u.ch.active = some a)
    (himmediate : e.record.start = 1) : u.turn x = some (u.endActive x .preempted false) := by
  have his : e.record.isImmediate = true := by simp [StepRecord.isImmediate, himmediate]
  simp only [turn, steps, hqueue, harmed, hactive, Bool.false_eq_true, if_false, his, if_true]

theorem turn_supersede (hqueue : u.ch.queue = e :: rest) (harmed : u.ch.armed = .good) (hactive : u.ch.active = some a)
    (himmediate : e.record.start ≠ 1) (hcontinuous : a.record.kindOf = some .position ∧ a.record.count = 0) :
    u.turn x = some (u.supersede x a e) := by
  have hnot : e.record.isImmediate = false := by simpa [StepRecord.isImmediate] using himmediate
  have hends : (a.record.isKind .position && a.record.continuous) = true := by
    simp [StepRecord.isKind, StepRecord.continuous, hcontinuous]
  simp only [turn, steps, hqueue, harmed, hactive, Bool.false_eq_true, if_false, hnot, hends, if_true]

theorem turn_hold {late : Bool} (hqueue : u.ch.queue = e :: rest) (harmed : u.ch.armed = .due late false)
    (hactive : u.ch.active = none) (hbusy : u.pool.reservedBusy x.id = true) :
    u.turn x = some { u with ch := { u.ch with armed := .due late true } } := by
  simp only [turn, steps, hqueue, harmed, hactive, Bool.false_eq_true, if_false, hbusy, if_true]

theorem turn_held {late : Bool} (hqueue : u.ch.queue = e :: rest) (harmed : u.ch.armed = .due late true)
    (hactive : u.ch.active = none) (hbusy : u.pool.reservedBusy x.id = true) : u.turn x = none := by
  simp only [turn, steps, hqueue, harmed, hactive, Bool.false_eq_true, if_false, hbusy, if_true]

theorem turn_start {late held : Bool} (hqueue : u.ch.queue = e :: rest) (harmed : u.ch.armed = .due late held)
    (hactive : u.ch.active = none) (hfree : u.pool.reservedBusy x.id = false) :
    u.turn x = some (u.start e late held) := by
  simp only [turn, steps, hqueue, harmed, hactive, Bool.false_eq_true, if_false, hfree]

theorem turn_empty (hqueue : u.ch.queue = []) (hquiet : u.ch.active = none → u.ch.fetchFault = false) :
    u.turn x = none := by
  have hno : (u.ch.active.isNone && u.ch.fetchFault) = false := by
    cases hactive : u.ch.active with
    | none => simp [hquiet hactive]
    | some a => rfl
  simp only [turn, steps, hqueue, hno, Bool.false_eq_true, if_false]

theorem turn_fault (hqueue : u.ch.queue = []) (hactive : u.ch.active = none) (hfault : u.ch.fetchFault = true) :
    u.turn x = some (u.stopOnFault x) := by
  simp only [turn, steps, hqueue, hactive, hfault, Bool.false_eq_true, if_false, Option.isNone_none, Bool.and_self, if_true]

end Turn

theorem turn_shut (steps : u.ch.noSteps = true) : u.turn x = none := if_pos steps

/-! ### What the operations of a turn leave -/

theorem admitted_bound {q : RingId} (hbound : u.ch.bound = some q) (slot : SlotKind) (d : Draft) :
    u.admitted slot d = { u with
      pool := u.pool.append q { slot := slot, entry := { draft := d, seq := u.ch.seq, missed := u.ch.missed } }
      ch := u.ch.afterAdmission } := by
  obtain ⟨hnone, -⟩ | ⟨q', hq, hadmitted⟩ := u.admitted_cases slot d
  · simp [hnone] at hbound
  · obtain rfl : q' = q := by simpa [hbound] using hq.symm
    exact hadmitted

theorem canStage_of_active (hactive : u.ch.active = some a) : u.canStage x = u.pool.hasShared := by
  simp [canStage, hactive]

theorem canStage_iff (hactive : u.ch.active = none) :
    u.canStage x = true ↔ u.pool.hasShared = true ∨ u.pool.reservedBusy x.id = false := by
  simp [canStage, hactive]

theorem canStage_eq_false_iff (hactive : u.ch.active = none) :
    u.canStage x = false ↔ u.pool.hasShared = false ∧ u.pool.reservedBusy x.id = true := by
  simp [canStage, hactive]

theorem stage_bound {q : RingId} (hbound : u.ch.bound = some q) (d : Draft) :
    u.stage d = { u with
      pool := u.pool.append q { slot := u.pool.slotForReport, entry := { draft := d, seq := u.ch.seq, missed := u.ch.missed } }
      ch := u.ch.afterAdmission } :=
  admitted_bound hbound ..

theorem arm_good (h : validate u.ch x.wide e.record = none) : u.arm x e = { u with ch := { u.ch with armed := .good } } := by
  simp only [arm, h]

theorem arm_bad {code : Nat} (h : validate u.ch x.wide e.record = some code) :
    u.arm x e = { u with ch := { u.ch with armed := .removal .badStep code x.clock.tb } } := by
  simp only [arm, h]

end UnitView

/-! ### The state that a channel takes from its window (R3) -/

namespace Channel
variable {ch : Channel} (steps : ch.noSteps = false)
include steps

theorem derivedState_active {a : Step} (hactive : ch.active = some a) : ch.derivedState = .active := by
  have hopen := not_stopped_of_steps steps
  rw [derivedState_of_open (fun h => hopen (.inl h)) (fun h => hopen (.inr h)), hactive]
  rfl

theorem derivedState_idle (hactive : ch.active = none) (hqueue : ch.queue = []) : ch.derivedState = .idle := by
  have hopen := not_stopped_of_steps steps
  rw [derivedState_of_open (fun h => hopen (.inl h)) (fun h => hopen (.inr h)), hactive, hqueue]
  rfl

theorem derivedState_held {e : Step} {rest : List Step} (hactive : ch.active = none) (hqueue : ch.queue = e :: rest)
    (hevaluation : ch.evaluation = .none) : ch.derivedState = .held := by
  have hopen := not_stopped_of_steps steps
  rw [derivedState_of_open (fun h => hopen (.inl h)) (fun h => hopen (.inr h)), hactive, hqueue, hevaluation]
  rfl

theorem derivedState_waiting {e : Step} {rest : List Step} (hactive : ch.active = none) (hqueue : ch.queue = e :: rest)
    (hevaluation : ch.evaluation ≠ .none) : ch.derivedState = .waiting := by
  have hopen := not_stopped_of_steps steps
  rw [derivedState_of_open (fun h => hopen (.inl h)) (fun h => hopen (.inr h)), hactive, hqueue]
  simp [hevaluation]

end Channel

/-! ### An event of a unit, turn by turn -/

/-- `m` turns lead the unit from `u` to `v`. -/
def UnitView.Turns (x : UnitContext) (m : Nat) (u v : UnitView) : Prop := ∀ n, u.proceed x (m + n) = v.proceed x n

/-- From the view `u` of unit `c`, at most `n` turns complete an event of the part `p`, and leave the part `p'`. -/
def Part.Settles (p : Part) (k : Clock) (c : ChanId) (u : UnitView) (n : Nat) (p' : Part) : Prop :=
  ∃ m v, m ≤ n ∧ u.Turns (p.context k c) m v ∧ v.turn (p.context k c) = none ∧ v.told = u.told ∧ p.withView c v.settle = p'

theorem UnitView.proceed_of_turn_none {x : UnitContext} {u : UnitView} (h : u.turn x = none) (n : Nat) :
    u.proceed x n = u := by
  cases n with
  | zero => rfl
  | succ n => simp only [UnitView.proceed, h]

namespace Part.Settles
variable {p p' : Part} {k : Clock} {c : ChanId} {u v : UnitView} {n m : Nat}

theorem stop (h : u.turn (p.context k c) = none) (hp : p.withView c u.settle = p') : p.Settles k c u n p' :=
  ⟨0, u, Nat.zero_le n, fun m => by rw [Nat.zero_add], h, rfl, hp⟩

theorem turn (h : u.turn (p.context k c) = some v) (told : v.told = u.told) (hs : p.Settles k c v n p') :
    p.Settles k c u (n + 1) p' := by
  obtain ⟨m, w, hle, hturns, hstop, htold, hp⟩ := hs
  refine ⟨m + 1, w, by omega, fun j => ?_, hstop, htold.trans told, hp⟩
  rw [show m + 1 + j = (m + j) + 1 by omega]
  simp only [UnitView.proceed, h]
  exact hturns j

theorem mono (hs : p.Settles k c u m p') (h : m ≤ n) : p.Settles k c u n p' := by
  obtain ⟨j, w, hle, hrest⟩ := hs
  exact ⟨j, w, by omega, hrest⟩

theorem handOver (hs : p.Settles k c u n p') (hn : n ≤ 32) :
    p.withView c (u.handOver (p.context k c)).settle = p' ∧ (u.handOver (p.context k c)).told = u.told := by
  obtain ⟨m, v, hle, hturns, hstop, htold, hp⟩ := hs
  have hlast : u.handOver (p.context k c) = v := by
    have hfuel : turnLimit = m + (32 - m) := by
      rw [turnLimit]
      omega
    rw [UnitView.handOver, hfuel, hturns, UnitView.proceed_of_turn_none hstop]
  rw [hlast]
  exact ⟨hp, htold⟩

end Part.Settles

/-- An event of a unit that tells the admin unit nothing. -/
theorem Part.atUnit_untold {p : Part} {k : Clock} {c : ChanId} {f : UnitContext → UnitView → UnitView} {u : UnitView}
    (hf : f (p.context k c) (p.view c) = u) (told : u.told = none) : p.atUnit k c f = p.withView c u.settle := by
  have htold : u.settle.told = none := told
  simp only [Part.atUnit, hf, htold, Part.hearHalt]

/-- An event of a unit that hands over. -/
theorem Part.atUnit_handOver {p p' : Part} {k : Clock} {c : ChanId} {f : UnitContext → UnitView → UnitView} {u : UnitView}
    {n : Nat} (hf : f (p.context k c) (p.view c) = u.handOver (p.context k c)) (told : u.told = none)
    (hs : p.Settles k c u n p') (hn : n ≤ 32) : p.atUnit k c f = p' := by
  obtain ⟨hp, htold⟩ := hs.handOver hn
  rw [Part.atUnit_untold hf (htold.trans told), hp]

end Sys2Proof.Machine
end

section
/-! PROOF. From any view of a channel unit: the steps behind an active one are armed (R8, R10), and a step whose start is
due starts or is HELD (R11, R12, R14, R33). -/

namespace Sys2Proof.Machine

/-! ### A part and its views -/

namespace Part
variable {p : Part} {k : Clock} {c : ChanId} {q : RingId} {u v : UnitView} {e a : Step} {behind : List Step}

@[simp] theorem withView_getElem (p : Part) (c : ChanId) (u : UnitView) : (p.withView c u).chans[c] = u.ch := by simp

@[simp] theorem withView_wide (p : Part) (c : ChanId) (u : UnitView) : (p.withView c u).wide c = p.wide c := rfl

theorem withView_set (p : Part) (c : ChanId) (u : UnitView) (ch : Channel) :
    { p.withView c u with chans := (p.withView c u).chans.set c ch } = p.withView c { u with ch := ch } := by
  simp [withView]

theorem withView_set_pool (p : Part) (c : ChanId) (u : UnitView) (ch : Channel) (pool : Pool) :
    { p.withView c u with chans := (p.withView c u).chans.set c ch, pool := pool }
      = p.withView c { u with ch := ch, pool := pool } := by
  simp [withView]

/-- A second mark of channel `c` at one event changes nothing. -/
theorem marks_or (marks : Vector Bool 8) (c : ChanId) (m n : Bool) :
    (if m || n then marks.set c true else marks)
      = if n then (if m then marks.set c true else marks).set c true else if m then marks.set c true else marks := by
  cases m <;> cases n <;> simp

/-- The pool of a view with an entry of its channel appended. -/
theorem poolWith_withView (p : Part) (c : ChanId) (u : UnitView) (q : RingId) (slot : SlotKind) (time : Ticks)
    (body : EntryBody) : (p.withView c u).poolWith c q slot time body
      = u.pool.append q { slot := slot
                          entry := { draft := { channel := c, time := time, body := body }
                                     seq := u.ch.seq, missed := u.ch.missed } } := by
  simp only [poolWith, withView_getElem, withView_pool]
  rfl

end Part

namespace UnitView
variable {x : UnitContext} {u : UnitView} {e : Step} {rest : List Step}

theorem settle_of_not_park (h : u.ending ≠ some true) :
    u.settle = { u with ch := { u.ch with state := u.ch.derivedState } } := by
  simp only [settle, if_neg h]

theorem settle_active {a : Step} (steps : u.ch.noSteps = false) (hactive : u.ch.active = some a)
    (h : u.ending ≠ some true) : u.settle = { u with ch := { u.ch with state := .active } } := by
  rw [settle_of_not_park h, Channel.derivedState_active steps hactive]

/-- The view once the removal report of the step `e` was admitted into a slot, with the steps `rest` behind it. -/
def removed (u : UnitView) (c : ChanId) (q : RingId) (slot : SlotKind) (time : Ticks) (e : Step) (status : DoneStatus)
    (value : Nat) (rest : List Step) : UnitView :=
  { u with
    ch := { u.ch.afterAdmission with queue := rest, armed := .none }
    pool := u.pool.append q
      { slot := slot
        entry := { draft := { channel := c, time := time
                              body := removedBody u.ch e status value
                                (u.ch.active.isNone && rest.isEmpty && decide (u.ch.fetchIndex ≠ u.ch.tail)) }
                   seq := u.ch.seq, missed := u.ch.missed } } }

theorem remove_eq {q : RingId} (hqueue : u.ch.queue = e :: rest) (hbound : u.ch.bound = some q) (status : DoneStatus)
    (value : Nat) (time : Ticks) :
    u.remove x e status value time = u.removed x.id q u.pool.slotForReport time e status value rest := by
  have hbody : ({ u.ch with queue := rest, armed := .none } : Channel).removalBody e status value
      = { tag := e.record.tag, status := status
          flags :=
            { late := false, heldStart := false
              underrun := u.ch.active.isNone && rest.isEmpty && decide (u.ch.fetchIndex ≠ u.ch.tail), forced := false }
          value := value, sqHead := if e.index + 1 < u.ch.ringSize then e.index + 1 else 0
          flushed := 0, fetchError := false, firstTag := 0, stats := none } := by
    have hdry : (u.ch.fetchIndex != u.ch.tail) = decide (u.ch.fetchIndex ≠ u.ch.tail) := by
      rw [Bool.eq_iff_iff]
      simp
    simp only [Channel.removalBody, Channel.runsDry, bump, Bool.and_assoc, hdry]
  simp only [remove, hqueue, List.tail_cons, hbody]
  exact stage_bound (u := { u with ch := { u.ch with queue := rest, armed := .none } }) hbound _

theorem turn_removes {q : RingId} {status : DoneStatus} {value : Nat} {time : Ticks} (steps : u.ch.noSteps = false)
    (hqueue : u.ch.queue = e :: rest) (harmed : u.ch.armed = .removal status value time) (hbound : u.ch.bound = some q)
    (hstage : u.canStage x = true) :
    u.turn x = some (u.removed x.id q u.pool.slotForReport time e status value rest) := by
  rw [turn_remove steps hqueue harmed hstage, remove_eq hqueue hbound]

/-- The channel that a started step leaves, but for the steps behind it (R14, R28, R43). -/
theorem start_ch {late held : Bool} (hqueue : u.ch.queue = e :: rest) :
    (u.start e late held).ch
      = { startedChannel u.ch e late held with state := u.ch.state, queue := rest } := by
  simp only [start, Channel.startCounts, startedChannel, hqueue, List.tail_cons, StepRecord.isKind, Bool.and_eq_true,
    beq_iff_eq]

theorem start_lines {late held : Bool} : (u.start e late held).lines = linesAtStart u.lines u.ch e.record :=
  driveLines_first (ch := u.ch) (ch2 := (u.start e late held).ch) u.lines rfl rfl rfl rfl rfl rfl

end UnitView

/-! ### The steps behind an active one are armed -/

/-- The view with the channel ACTIVE, and with these steps behind the active one. -/
def UnitView.behind (u : UnitView) (queue : List Step) (armed : Armed) : UnitView :=
  { u with ch := { u.ch with state := .active, queue := queue, armed := armed } }

theorem UnitView.settle_behind {u : UnitView} {a : Step} {l : List Step} {armed : Armed} (steps : u.ch.noSteps = false)
    (hactive : u.ch.active = some a) (hpark : u.ending ≠ some true) (hqueue : u.ch.queue = l) (harmed : u.ch.armed = armed) :
    u.settle = u.behind l armed := by
  rw [settle_active steps hactive hpark, behind, ← hqueue, ← harmed]

namespace Part
variable {p : Part} {k : Clock} {c : ChanId} {q : RingId} {u v : UnitView} {e a : Step} {rest w : List Step} {x : Armed}
  {tb : Ticks}

theorem validate_behind : validate (p.withView c (u.behind w x)).chans[c] ((p.withView c (u.behind w x)).wide c) e.record
    = validate u.ch (p.wide c) e.record := by
  rw [withView_getElem]
  exact validate_congr rfl rfl ..

theorem armBehind_good (h : validate u.ch (p.wide c) e.record = none) :
    armBehind c q tb (e :: rest) (p.withView c (u.behind w x)) = p.withView c (u.behind (e :: rest) .good) := by
  rw [armBehind, validate_behind, h]
  simp only [withView, UnitView.behind, Fin.getElem_fin, Vector.getElem_set_self, Vector.set_set]
  rfl

theorem armBehind_waits {code : Nat} (h : validate u.ch (p.wide c) e.record = some code)
    (hfull : u.pool.hasShared = false) :
    armBehind c q tb (e :: rest) (p.withView c (u.behind w x))
      = p.withView c (u.behind (e :: rest) (.removal .badStep code tb)) := by
  have hfull' : (p.withView c (u.behind w x)).pool.hasShared = false := hfull
  rw [armBehind, validate_behind, h]
  simp only [hfull', Bool.false_eq_true, if_false]
  simp only [withView, UnitView.behind, Fin.getElem_fin, Vector.getElem_set_self, Vector.set_set]
  rfl

theorem armBehind_removes {code : Nat} (h : validate u.ch (p.wide c) e.record = some code)
    (hactive : u.ch.active = some a) (hshared : u.pool.hasShared = true) :
    armBehind c q tb (e :: rest) (p.withView c (u.behind w x))
      = armBehind c q tb rest
          (p.withView c ((u.removed c q .shared tb e .badStep code rest).behind rest .none)) := by
  have hshared' : (p.withView c (u.behind w x)).pool.hasShared = true := hshared
  rw [armBehind, validate_behind, h]
  simp only [hshared', if_true, poolWith_withView, withView_getElem]
  congr 1
  simp [withView, UnitView.behind, UnitView.removed, hactive, Channel.afterAdmission, removedBody]

theorem settles_armBehind (steps : u.ch.noSteps = false) (hactive : u.ch.active = some a) (hpark : u.ending ≠ some true)
    (hqueue : u.ch.queue = rest) (harmed : u.ch.armed = .none) (hruns : a.runsOn rest)
    (hbound : rest ≠ [] → u.ch.bound = some q) (hw : rest = [] → w = []) :
    p.Settles k c u (2 * rest.length) (armBehind c q k.tb rest (p.withView c (u.behind w .none))) := by
  induction rest generalizing u w with
  | nil =>
    refine .stop (UnitView.turn_empty steps hqueue (by simp [hactive])) ?_
    rw [UnitView.settle_behind steps hactive hpark hqueue harmed, armBehind, hw rfl]
  | cons e rest ih =>
    have hq := hbound (by simp)
    have harm := UnitView.turn_arm (x := p.context k c) steps hqueue harmed
    have hlength : 2 * (e :: rest).length = 2 * rest.length + 1 + 1 := by simp [Nat.mul_add]
    rw [hlength]
    cases hcode : validate u.ch (p.wide c) e.record with
    | none =>
      rw [UnitView.arm_good (x := p.context k c) hcode] at harm
      rw [armBehind_good hcode]
      obtain ⟨himmediate, hcontinuous⟩ := hruns e (by simp)
      refine .turn harm rfl (.stop (UnitView.turn_runs_on (a := a) steps hqueue rfl hactive himmediate hcontinuous) ?_)
      exact congrArg _ (UnitView.settle_behind (a := a) steps hactive hpark hqueue rfl)
    | some code =>
      rw [UnitView.arm_bad (x := p.context k c) hcode] at harm
      cases hshared : u.pool.hasShared with
      | true =>
        rw [armBehind_removes hcode hactive hshared]
        have hslot : u.pool.slotForReport = .shared := by simp [Pool.slotForReport, hshared]
        have hnext := ih (u := u.removed c q .shared k.tb e .badStep code rest) (w := rest) steps hactive hpark rfl rfl
          (fun y hy => hruns y (by simp [hy])) (fun _ => hq) id
        rw [← hslot] at hnext ⊢
        refine .turn harm rfl (.turn (UnitView.turn_removes steps hqueue rfl hq ?_) rfl hnext)
        exact (UnitView.canStage_of_active (x := p.context k c) (a := a) hactive).trans hshared
      | false =>
        rw [armBehind_waits hcode hshared]
        refine .turn harm rfl (.stop (UnitView.turn_removal_waits (e := e) steps hqueue rfl ?_) ?_)
        · exact (UnitView.canStage_of_active (x := p.context k c) (a := a) hactive).trans hshared
        · exact congrArg _ (UnitView.settle_behind (a := a) steps hactive hpark hqueue rfl)

end Part

/-! ### A step whose start is due -/

namespace Part
variable {p : Part} {k : Clock} {c : ChanId} {q : RingId} {u : UnitView} {e : Step} {rest : List Step} {late held : Bool}
  {tb : Ticks}

/-- The part once a step has started is that of the started view, but for the steps behind it. -/
theorem stepStarts_withView (hqueue : u.ch.queue = e :: rest) :
    (p.withView c u).stepStarts c q tb e late held rest
      = armBehind c q tb rest (p.withView c ((u.start e late held).behind [] .none)) := by
  rw [stepStarts]
  congr 1
  simp only [withView, UnitView.behind, UnitView.start_ch hqueue, UnitView.start_lines, Vector.set_set, Fin.getElem_fin,
    Vector.getElem_set_self]
  rw [show (u.start e late held).emitted = (u.emitted || e.record.markStart) from rfl, marks_or]
  rfl

theorem settles_start (steps : u.ch.noSteps = false) (hqueue : u.ch.queue = e :: rest)
    (harmed : u.ch.armed = .due late held) (hactive : u.ch.active = none) (hfree : u.pool.reservedBusy c = false)
    (hruns : e.runsOn rest) (hbound : rest ≠ [] → u.ch.bound = some q) :
    p.Settles k c u (2 * rest.length + 1) ((p.withView c u).stepStarts c q k.tb e late held rest) := by
  have htail : (u.start e late held).ch.queue = rest := by simp [UnitView.start, hqueue]
  rw [stepStarts_withView hqueue]
  exact .turn (UnitView.turn_start steps hqueue harmed hactive hfree) rfl
    (settles_armBehind (u := u.start e late held) (a := e) steps rfl (by simp [UnitView.start]) htail rfl hruns hbound
      (fun _ => rfl))

end Part

end Sys2Proof.Machine
end

section
/-! PROOF. A step armed GOOD with nothing active proceeds (R11, R12, R77, R78, R81), and what stands behind a step that was
removed proceeds after it (R10). -/

namespace Sys2Proof.Machine

/-! ### Drives set again -/

theorem setDrives_setDrives (l : Vector LineEntry 16) (ch : Channel) (b a b2 a2 : Drive) :
    setDrives (setDrives l ch b2 a2) ch b a = setDrives l ch b a := by
  refine Vector.ext fun i hi => ?_
  have hsame : (setDrives (setDrives l ch b2 a2) ch b a)[(⟨i, hi⟩ : LineId)] = (setDrives l ch b a)[(⟨i, hi⟩ : LineId)] := by
    simp only [setDrives, updateLine_getElem]
    split_ifs <;> rfl
  exact hsame

/-! ### Where the evaluation of a start begins (R11, R77, R78) -/

namespace StepRecord
variable {r : StepRecord} {tb : Ticks}

/-- The start is due at once: the step is no early AT_TIME step, no ON_MARK step, and is not to be skipped (R77, R78). -/
abbrev isDueNow (r : StepRecord) (tb : Ticks) : Prop :=
  ¬(r.start = 2 ∧ 0 < r.lateness tb ∧ r.lateness tb < 2 ^ 47) ∧ r.start ≠ 3 ∧ ¬r.isSkipped tb

/-- The start is that of an AT_TIME step which is late (R78). -/
abbrev isLate (r : StepRecord) (tb : Ticks) : Bool := decide (r.start = 2 ∧ r.lateness tb ≠ 0)

/-- The expiry of the ON_MARK evaluation that begins in tick `tb` (R81). -/
abbrev expiry (r : StepRecord) (tb : Ticks) : Option Ticks :=
  if r.startTimeout = 0 then none else some (tb + r.startTimeout.setWidth 48)

/-- The value of a LATE_SKIPPED report (R78). -/
def skippedValue (r : StepRecord) (tb : Ticks) : Nat := min (2 ^ 48 - r.lateness tb) 4294967295

theorem isDueNow_of_chain (h : r.start = 0 ∨ r.start = 1) : r.isDueNow tb := by
  refine ⟨?_, ?_, ?_⟩ <;> rcases h with h | h <;> simp [h]

theorem isLate_of_chain (h : r.start = 0 ∨ r.start = 1) : r.isLate tb = false := by
  rcases h with h | h <;> simp [h]

theorem isDueNow_of_late (h : r.start = 2) (hlate : r.lateness tb = 0 ∨ 2 ^ 47 ≤ r.lateness tb ∧ r.strict = false) :
    r.isDueNow tb := by
  refine ⟨?_, by simp [h], ?_⟩
  · omega
  · rintro ⟨-, hle, hstrict⟩
    rcases hlate with h0 | ⟨-, hnot⟩
    · omega
    · simp [hstrict] at hnot

theorem isLate_of_atTime (h : r.start = 2) : r.isLate tb = decide (r.lateness tb ≠ 0) := by simp [h]

end StepRecord

namespace UnitView
variable {x : UnitContext} {u : UnitView} {e : Step}

theorem beginAtTime_eq : u.beginAtTime x e =
    if e.record.lateness x.clock.tb = 0 then { u with ch := { u.ch with armed := .due false false } }
    else if e.record.lateness x.clock.tb < 2 ^ 47 then
      { u with ch := { u.ch with evaluation := .atTime e.record.startTime } }
    else if e.record.strict then
      { u with ch := { u.ch with armed := .removal .lateSkipped (e.record.skippedValue x.clock.tb) x.clock.tb } }
    else { u with ch := { u.ch with armed := .due true false } } := rfl

theorem beginStart_due (h : e.record.isDueNow x.clock.tb) : u.beginStart x e
    = { u with ch := { u.ch with armed := .due (e.record.isLate x.clock.tb) false } } := by
  obtain ⟨hearly, hmark, hskipped⟩ := h
  have hno : e.record.isOnMark = false := by simpa [StepRecord.isOnMark] using hmark
  by_cases htime : e.record.start = 2
  · have his : e.record.isAtTime = true := by simp [StepRecord.isAtTime, htime]
    simp only [beginStart, his, if_true, beginAtTime_eq, StepRecord.isLate, htime, true_and]
    simp only [htime, true_and, StepRecord.isSkipped] at hearly hskipped
    by_cases hzero : e.record.lateness x.clock.tb = 0
    · simp [hzero]
    · have hge : ¬e.record.lateness x.clock.tb < 2 ^ 47 := by omega
      have hstrict : e.record.strict = false := by
        rw [← Bool.not_eq_true]
        exact fun hs => hskipped ⟨by omega, hs⟩
      simp only [if_neg hge, hstrict, Bool.false_eq_true, if_false, ne_eq, hzero, not_false_eq_true,
        decide_true]
  · have hnot : e.record.isAtTime = false := by simpa [StepRecord.isAtTime] using htime
    simp only [beginStart, hnot, hno, Bool.false_eq_true, if_false, StepRecord.isLate, htime, false_and, decide_false]

theorem beginStart_early (h : e.record.start = 2)
    (hd : 0 < e.record.lateness x.clock.tb ∧ e.record.lateness x.clock.tb < 2 ^ 47) :
    u.beginStart x e = { u with ch := { u.ch with evaluation := .atTime e.record.startTime } } := by
  have his : e.record.isAtTime = true := by simp [StepRecord.isAtTime, h]
  simp only [beginStart, his, if_true, beginAtTime_eq, if_neg (Nat.pos_iff_ne_zero.mp hd.1), if_pos hd.2]

theorem beginStart_onMark (h : e.record.start = 3) :
    u.beginStart x e = { u with ch := { u.ch with
      evaluation := .onMark e.record.source (e.record.expiry x.clock.tb) } } := by
  have hnot : e.record.isAtTime = false := by simp [StepRecord.isAtTime, h]
  have his : e.record.isOnMark = true := by simp [StepRecord.isOnMark, h]
  simp only [beginStart, hnot, his, Bool.false_eq_true, if_false, if_true, beginOnMark]

theorem beginStart_skipped (h : e.record.isSkipped x.clock.tb) :
    u.beginStart x e = { u with ch := { u.ch with
      armed := .removal .lateSkipped (e.record.skippedValue x.clock.tb) x.clock.tb } } := by
  obtain ⟨hstart, hd, hstrict⟩ := h
  have his : e.record.isAtTime = true := by simp [StepRecord.isAtTime, hstart]
  have hzero : e.record.lateness x.clock.tb ≠ 0 := by omega
  have hge : ¬e.record.lateness x.clock.tb < 2 ^ 47 := by omega
  simp only [beginStart, his, if_true, beginAtTime_eq, if_neg hzero, if_neg hge, hstrict]

/-- The view with the end behaviour of a step that ended, and that no step followed (R34, R88). -/
def parked (u : UnitView) : UnitView :=
  { u with lines := if u.ending = some true then setDrives u.lines u.ch .none .none else u.lines }

theorem parked_eq (h : u.ending ≠ some true) : u.parked = u := by
  simp only [parked, if_neg h]

/-- The view as an event leaves it whose channel starts nothing, in this state and with this armed outcome: the end
behaviour of a step that ended takes effect (R34, R88). -/
def stands (u : UnitView) (state : ChState) (armed : Armed) (evaluation : Evaluation) : UnitView :=
  { u.parked with ch := { u.ch with state := state, armed := armed, evaluation := evaluation } }

theorem settle_stands {state : ChState} {armed : Armed} {evaluation : Evaluation} (hstate : u.ch.derivedState = state)
    (harmed : u.ch.armed = armed) (hevaluation : u.ch.evaluation = evaluation) :
    u.settle = u.stands state armed evaluation := by
  rw [settle, stands, hstate, ← harmed, ← hevaluation]
  rfl

end UnitView

/-! ### The outcomes of a GOOD step with nothing active -/

namespace Part
variable {p : Part} {k : Clock} {c : ChanId} {q : RingId} {u : UnitView} {e : Step} {rest : List Step}

theorem settles_held {late : Bool} (steps : u.ch.noSteps = false) (hqueue : u.ch.queue = e :: rest)
    (harmed : u.ch.armed = .due late false) (hactive : u.ch.active = none) (hevaluation : u.ch.evaluation = .none)
    (hbusy : u.pool.reservedBusy c = true) :
    p.Settles k c u 1 (p.withView c (u.stands .held (.due late true) .none)) := by
  refine .turn (UnitView.turn_hold (x := p.context k c) steps hqueue harmed hactive hbusy) rfl (.stop (UnitView.turn_held (e := e)
    (rest := rest) (late := late) steps hqueue rfl hactive hbusy) (congrArg _ ?_))
  exact UnitView.settle_stands (u := { u with ch := { u.ch with armed := .due late true } })
    (Channel.derivedState_held (ch := { u.ch with armed := .due late true }) steps hactive hqueue hevaluation) rfl hevaluation

section Good
variable (steps : u.ch.noSteps = false) (hqueue : u.ch.queue = e :: rest) (harmed : u.ch.armed = .good)
  (hactive : u.ch.active = none) (hevaluation : u.ch.evaluation = .none)
include steps hqueue harmed hactive hevaluation

theorem settles_begin {p' : Part} {v : UnitView} {n : Nat} (h : u.beginStart (p.context k c) e = v) (told : v.told = u.told)
    (hv : p.Settles k c v n p') : p.Settles k c u (n + 1) p' :=
  .turn ((UnitView.turn_begin steps hqueue harmed hactive hevaluation).trans (congrArg some h)) told hv

theorem settles_waiting {evaluation : Evaluation} (hne : evaluation ≠ .none)
    (h : u.beginStart (p.context k c) e = { u with ch := { u.ch with evaluation := evaluation } }) :
    p.Settles k c u 1 (p.withView c (u.stands .waiting .good evaluation)) := by
  refine settles_begin steps hqueue harmed hactive hevaluation h rfl (.stop ?_ (congrArg _ ?_))
  · exact UnitView.turn_evaluates (e := e) (rest := rest) steps hqueue harmed hactive hne
  · exact UnitView.settle_stands (u := { u with ch := { u.ch with evaluation := evaluation } })
      (Channel.derivedState_waiting (ch := { u.ch with evaluation := evaluation }) steps hactive hqueue hne) harmed rfl

theorem settles_early (h : e.record.start = 2) (hd : 0 < e.record.lateness k.tb ∧ e.record.lateness k.tb < 2 ^ 47) :
    p.Settles k c u 1 (p.withView c (u.stands .waiting .good (.atTime e.record.startTime))) :=
  settles_waiting steps hqueue harmed hactive hevaluation (by simp)
    (UnitView.beginStart_early (x := p.context k c) h hd)

theorem settles_onMark (h : e.record.start = 3) :
    p.Settles k c u 1 (p.withView c (u.stands .waiting .good (.onMark e.record.source (e.record.expiry k.tb)))) :=
  settles_waiting steps hqueue harmed hactive hevaluation (by simp) (UnitView.beginStart_onMark (x := p.context k c) h)

theorem settles_skipped_waits (h : e.record.isSkipped k.tb) (hshared : u.pool.hasShared = false)
    (hbusy : u.pool.reservedBusy c = true) :
    p.Settles k c u 1
      (p.withView c (u.stands .held (.removal .lateSkipped (e.record.skippedValue k.tb) k.tb) .none)) := by
  refine settles_begin steps hqueue harmed hactive hevaluation (UnitView.beginStart_skipped (x := p.context k c) h) rfl
    (.stop ?_ (congrArg _ ?_))
  · refine UnitView.turn_removal_waits (e := e) (rest := rest) steps hqueue rfl ?_
    exact (UnitView.canStage_eq_false_iff hactive).mpr ⟨hshared, hbusy⟩
  · exact UnitView.settle_stands
      (u := { u with ch := { u.ch with armed := .removal .lateSkipped (e.record.skippedValue k.tb) k.tb } })
      (Channel.derivedState_held
        (ch := { u.ch with armed := .removal .lateSkipped (e.record.skippedValue k.tb) k.tb }) steps hactive hqueue hevaluation)
      rfl hevaluation

theorem settles_skipped (h : e.record.isSkipped k.tb) (hbound : u.ch.bound = some q)
    (hroom : u.pool.hasShared = true ∨ u.pool.reservedBusy c = false) {n : Nat} {p' : Part}
    (hrest : p.Settles k c
      (u.removed c q u.pool.slotForReport k.tb e .lateSkipped (e.record.skippedValue k.tb) rest) n p') :
    p.Settles k c u (n + 2) p' := by
  refine settles_begin steps hqueue harmed hactive hevaluation (UnitView.beginStart_skipped (x := p.context k c) h) rfl
    (.turn (UnitView.turn_removes (q := q) steps hqueue rfl hbound ?_) rfl hrest)
  exact (UnitView.canStage_iff hactive).mpr hroom

theorem settles_due_starts (h : e.record.isDueNow k.tb) (hfree : u.pool.reservedBusy c = false) (hruns : e.runsOn rest)
    (hbound : rest ≠ [] → u.ch.bound = some q) :
    p.Settles k c u (2 * rest.length + 2)
      ((p.withView c u).stepStarts c q k.tb e (e.record.isLate k.tb) false rest) := by
  have hstart := settles_start (p := p) (k := k) (c := c) (q := q)
    (u := { u with ch := { u.ch with armed := .due (e.record.isLate k.tb) false } }) (late := e.record.isLate k.tb)
    (held := false) steps hqueue rfl hactive hfree hruns hbound
  refine settles_begin steps hqueue harmed hactive hevaluation (UnitView.beginStart_due (x := p.context k c) h) rfl ?_
  rw [stepStarts_withView (u := { u with ch := { u.ch with armed := .due (e.record.isLate k.tb) false } }) hqueue] at hstart
  rw [stepStarts_withView hqueue]
  exact hstart

theorem settles_due_held (h : e.record.isDueNow k.tb) (hbusy : u.pool.reservedBusy c = true) :
    p.Settles k c u 2 (p.withView c (u.stands .held (.due (e.record.isLate k.tb) true) .none)) := by
  refine settles_begin steps hqueue harmed hactive hevaluation (UnitView.beginStart_due (x := p.context k c) h) rfl ?_
  exact settles_held (u := { u with ch := { u.ch with armed := .due (e.record.isLate k.tb) false } }) steps hqueue rfl
    hactive hevaluation hbusy

end Good

/-- The view of a step that started with nothing behind it. -/
theorem stepStarts_last {tb : Ticks} {late held : Bool} : (p.withView c u).stepStarts c q tb e late held []
    = p.withView c { u with
        ch := startedChannel u.ch e late held
        lines := linesAtStart u.lines u.ch e.record
        emitted := u.emitted || e.record.markStart } := by
  simp only [stepStarts, armBehind, withView, Vector.set_set, Fin.getElem_fin, Vector.getElem_set_self, marks_or]

/-- What a step leaves that starts takes of the channel and its lines what a start does not set. -/
theorem stepStarts_congr {tb : Ticks} {late held : Bool} {ch : Channel} {lines : Vector LineEntry 16}
    (hch : startedChannel ch e late held = startedChannel u.ch e late held)
    (hlines : linesAtStart lines u.ch e.record = linesAtStart u.lines u.ch e.record) :
    (p.withView c { u with ch := ch, lines := lines }).stepStarts c q tb e late held rest
      = (p.withView c u).stepStarts c q tb e late held rest := by
  have hb : ch.bLine = u.ch.bLine := (congrArg Channel.bLine hch :)
  have ha : ch.aLine = u.ch.aLine := (congrArg Channel.aLine hch :)
  have hsame : linesAtStart lines ch e.record = linesAtStart u.lines u.ch e.record := by
    rw [← hlines]
    simp only [linesAtStart, setDrives_congr lines hb ha]
  simp only [stepStarts, withView, Vector.set_set, Fin.getElem_fin, Vector.getElem_set_self, hch, hsame]

theorem chainProceeds_restated {tb : Ticks} (state : ChState) (armed : Armed) :
    (p.withView c { u with ch := { u.ch with state := state, armed := armed } }).chainProceeds c q tb e rest
      = (p.withView c u).chainProceeds c q tb e rest := by
  have hstarts := stepStarts_congr (p := p) (c := c) (q := q) (u := u) (e := e) (rest := rest) (tb := tb) (late := false)
    (held := false) (ch := { u.ch with state := state, armed := armed }) (lines := u.lines) rfl rfl
  simp only [chainProceeds, hstarts]
  simp only [withView, Vector.set_set, Fin.getElem_fin, Vector.getElem_set_self]

/-- The first drives of an output step stand for the drives before them. -/
theorem linesAtStart_setDrives (l : Vector LineEntry 16) (ch : Channel) {r : StepRecord} (h : r.isOutput = true) (b a : Drive) :
    linesAtStart (setDrives l ch b a) ch r = linesAtStart l ch r := by
  simp only [linesAtStart, h, if_true]
  exact setDrives_setDrives ..

/-- A CHAIN or IMMEDIATE step proceeds: it starts, or is HELD (R11, R12). -/
theorem settles_chain (h : e.record.start = 0 ∨ e.record.start = 1) (steps : u.ch.noSteps = false)
    (hqueue : u.ch.queue = e :: rest) (harmed : u.ch.armed = .good) (hactive : u.ch.active = none)
    (hevaluation : u.ch.evaluation = .none) (hpark : u.ending ≠ some true ∨ e.record.isOutput = true) (hruns : e.runsOn rest)
    (hbound : rest ≠ [] → u.ch.bound = some q) :
    p.Settles k c u (2 * rest.length + 2) ((p.withView c u.parked).chainProceeds c q k.tb e rest) := by
  have hdue := StepRecord.isDueNow_of_chain (tb := k.tb) h
  have hlate := StepRecord.isLate_of_chain (tb := k.tb) h
  cases hbusy : u.pool.reservedBusy c with
  | true =>
    have hbusy' : (p.withView c u.parked).pool.reservedBusy c = true := hbusy
    refine .mono (m := 2) ?_ (by omega)
    have hheld := settles_due_held (p := p) (k := k) steps hqueue harmed hactive hevaluation hdue hbusy
    rw [hlate] at hheld
    rw [chainProceeds, if_pos hbusy', withView_set, withView_getElem]
    convert hheld using 2
    simp only [UnitView.stands, ← hqueue, ← hevaluation]
    rfl
  | false =>
    have hfree' : ¬(p.withView c u.parked).pool.reservedBusy c = true := by
      rw [withView_pool, UnitView.parked, hbusy]
      decide
    have hlines : linesAtStart u.parked.lines u.ch e.record = linesAtStart u.lines u.ch e.record := by
      rcases hpark with hpark | hout
      · rw [UnitView.parked_eq hpark]
      · simp only [UnitView.parked]
        split
        · exact linesAtStart_setDrives _ _ hout ..
        · rfl
    have hstarts := settles_due_starts (p := p) (k := k) steps hqueue harmed hactive hevaluation hdue hbusy hruns hbound
    rw [hlate] at hstarts
    rw [chainProceeds, if_neg hfree']
    exact (stepStarts_congr (u := u) (ch := u.ch) rfl hlines).symm ▸ hstarts

/-! ### After a removal -/

theorem removalStaged_withView {slot : SlotKind} {time : Ticks} {status : DoneStatus} {value : Nat} :
    (p.withView c u).removalStaged c q slot time e status value rest
      = p.withView c { u.removed c q slot time e status value rest with ch :=
          { (u.removed c q slot time e status value rest).ch with
            state := if u.ch.active.isSome then .active else .idle } } := by
  rw [removalStaged, withView_getElem, poolWith_withView, withView_set_pool]
  rfl

section Removed
variable {slot : SlotKind} {time : Ticks} {status : DoneStatus} {value : Nat} (steps : u.ch.noSteps = false)
include steps

theorem settles_removed_last (hactive : u.ch.active = none)
    (hfault : u.ch.fetchFault = false) :
    p.Settles k c (u.removed c q slot time e status value []) 0
      ((p.withView c u.parked).removalStaged c q slot time e status value []) := by
  refine .stop (UnitView.turn_empty steps rfl fun _ => hfault) ?_
  rw [removalStaged_withView, UnitView.settle,
    Channel.derivedState_idle (ch := (u.removed c q slot time e status value []).ch) steps hactive rfl]
  have hparked : u.parked.ch.active = none := hactive
  rw [hparked]
  rfl

/-- What stands behind a removed step that left nothing active: a valid CHAIN or IMMEDIATE step proceeds. -/
theorem settles_removed_chain {e2 : Step} (hactive : u.ch.active = none)
    (hpark : u.ending ≠ some true ∨ e2.record.isOutput = true) (hevaluation : u.ch.evaluation = .none) (hvalid : validate u.ch (p.wide c) e2.record = none)
    (hstart : e2.record.start = 0 ∨ e2.record.start = 1) (hruns : e2.runsOn rest) (hbound : u.ch.bound = some q) :
    p.Settles k c (u.removed c q slot time e status value (e2 :: rest)) (2 * rest.length + 3)
      (((p.withView c u.parked).removalStaged c q slot time e status value (e2 :: rest)).chainProceeds c q k.tb e2 rest) := by
  have harm := UnitView.turn_arm (x := p.context k c) (u := u.removed c q slot time e status value (e2 :: rest))
    (e := e2) steps rfl rfl
  rw [UnitView.arm_good (x := p.context k c) (u := u.removed c q slot time e status value (e2 :: rest))
    ((validate_congr (ch := u.ch) rfl rfl ..).trans hvalid)] at harm
  refine .turn harm rfl ?_
  have hchain := settles_chain (p := p) (k := k) (c := c) (q := q) (rest := rest) (e := e2)
    (u := { u.removed c q slot time e status value (e2 :: rest) with ch :=
      { (u.removed c q slot time e status value (e2 :: rest)).ch with armed := .good } })
    hstart steps rfl rfl hactive hevaluation hpark hruns (fun _ => hbound)
  rw [removalStaged_withView]
  have hgood := chainProceeds_restated (p := p) (c := c) (q := q) (e := e2) (rest := rest) (tb := k.tb)
    (u := u.parked.removed c q slot time e status value (e2 :: rest)) u.ch.state .good
  have hleft := chainProceeds_restated (p := p) (c := c) (q := q) (e := e2) (rest := rest) (tb := k.tb)
    (u := u.parked.removed c q slot time e status value (e2 :: rest)) (if u.ch.active.isSome then .active else .idle) .none
  exact hgood.trans hleft.symm ▸ hchain

/-- What stands behind a removed step, with a step active: the steps behind it are armed. -/
theorem settles_removed_behind {a : Step} (hactive : u.ch.active = some a) (hpark : u.ending ≠ some true)
    (hruns : a.runsOn rest) (hbound : rest ≠ [] → u.ch.bound = some q) :
    p.Settles k c (u.removed c q slot time e status value rest) (2 * rest.length)
      (armBehind c q k.tb rest ((p.withView c u).removalStaged c q slot time e status value rest)) := by
  have harmed := settles_armBehind (p := p) (k := k) (c := c) (q := q) (rest := rest) (w := rest)
    (u := u.removed c q slot time e status value rest) steps hactive hpark rfl rfl hruns hbound id
  rw [removalStaged_withView, hactive]
  exact harmed

end Removed
end Part

end Sys2Proof.Machine
end

section
/-! PROOF. Step reads that return to a channel with nothing active: the step starts, waits, is HELD or is removed (R6, R8, R10
to R12, R16, R77, R78, R81), and a failed read stops the channel (R24, R25). -/

namespace Sys2Proof.Machine

/-! ### The answer of a step read, and the unit that it finds -/

theorem Channel.steps_of_open {ch : Channel}
    (hstate : ch.state = .idle ∨ ch.state = .waiting ∨ ch.state = .active ∨ ch.state = .held) (halt : ch.halt = none) :
    ch.noSteps = false := by
  rcases hstate with h | h | h | h <;> simp [noSteps, h, halt]

section Read
variable {s : State} {c : ChanId} {w : Slot} {q : Part}

theorem exec_stepReadReturn (h : s.part.port.answers (.stepRead c))
    (hq : s.part.endTransaction.stepRead s.clock c (some (StepRecord.ofBytes w)) = q) (hm : q.marks = s.part.marks) :
    exec (.stepReadReturn w) s = .next (s.granted q) :=
  State.onPart_answered h rfl (fun old hold => by cases old <;> simp_all [TxKind.alike]) hq hm

theorem exec_stepReadReturn_close (h : s.part.port.answers (.stepRead c))
    (hq : s.part.endTransaction.stepRead s.clock c (some (StepRecord.ofBytes w)) = q) :
    exec (.stepReadReturn w) s = .next (s.withPart (q.closeStep s.clock s.part.marks)) := by
  have hread : exec (.stepReadReturn w) s = .next (s.onPart fun k p => p.answered k fun
      | .stepRead c => some fun p => p.stepRead k c (some (StepRecord.ofBytes w))
      | .entryWrite .. | .acqWrite | .adminRead | .configRead => none) := rfl
  rw [hread]
  unfold State.onPart
  dsimp only
  rw [Part.answered_live h rfl (fun old hold => by cases old <;> simp_all [TxKind.alike]), hq]
  rfl

theorem exec_stepReadError (h : s.part.port.answers (.stepRead c))
    (hq : s.part.endTransaction.stepRead s.clock c none = q) (hm : q.marks = s.part.marks) :
    exec .stepReadError s = .next (s.granted q) :=
  State.onPart_answered h rfl (fun old hold => by cases old <;> simp_all [TxKind.alike]) hq hm

end Read

namespace Part
variable {p p' : Part} {k : Clock} {c : ChanId} {r : StepRecord} {n : Nat}

/-- The view of the unit of channel `c` once the record `r` has joined its window. -/
def arrival (p : Part) (c : ChanId) (r : StepRecord) : UnitView :=
  { p.view c with ch := { p.chans[c] with
      queue := p.chans[c].queue ++ [(⟨p.chans[c].fetchIndex, r⟩ : Step)]
      fetchIndex := bump p.chans[c].fetchIndex p.chans[c].ringSize
      fetchInFlight := false, stale := false } }

theorem joined_eq_arrival : ((p.view c).fetched false).joined r = p.arrival c r := by
  simp only [UnitView.joined, UnitView.fetched, Bool.or_false]
  rfl

theorem stepRead_joins (hstale : p.chans[c].stale = false) (steps : p.chans[c].noSteps = false)
    (hs : p.Settles k c (p.arrival c r) n p') (hn : n ≤ 32) : p.stepRead k c (some r) = p' := by
  obtain ⟨hdiscard, -⟩ | ⟨-, -, ⟨hnone, -⟩ | ⟨r', hr, hreads⟩⟩ := (p.view c).readReturns_cases (p.context k c) (some r)
  · rcases hdiscard with hdiscard | hdiscard
    · exact absurd (hstale.symm.trans hdiscard) (by simp)
    · exact absurd (steps.symm.trans hdiscard) (by simp)
  · cases hnone
  · cases hr
    rw [joined_eq_arrival] at hreads
    exact atUnit_handOver (f := fun x u => u.readReturns x (some r)) hreads rfl hs hn

theorem stepRead_fails (hstale : p.chans[c].stale = false) (steps : p.chans[c].noSteps = false)
    (hs : p.Settles k c ((p.view c).fetched true) n p') (hn : n ≤ 32) : p.stepRead k c none = p' := by
  obtain ⟨hdiscard, -⟩ | ⟨-, -, ⟨-, hreads⟩ | ⟨r', hr, -⟩⟩ := (p.view c).readReturns_cases (p.context k c) none
  · rcases hdiscard with hdiscard | hdiscard
    · exact absurd (hstale.symm.trans hdiscard) (by simp)
    · exact absurd (steps.symm.trans hdiscard) (by simp)
  · exact atUnit_handOver (f := fun x u => u.readReturns x none) hreads rfl hs hn
  · cases hr

/-- A GOOD outcome of the validation of the first armed step (R8). -/
theorem settles_arm_good {u : UnitView} {e : Step} {rest : List Step} (steps : u.ch.noSteps = false)
    (hqueue : u.ch.queue = e :: rest) (harmed : u.ch.armed = .none)
    (hvalid : validate u.ch (p.wide c) e.record = none)
    (hs : p.Settles k c { u with ch := { u.ch with armed := .good } } n p') : p.Settles k c u (n + 1) p' := by
  have harm := UnitView.turn_arm (x := p.context k c) steps hqueue harmed
  rw [UnitView.arm_good (x := p.context k c) hvalid] at harm
  exact .turn harm rfl hs

theorem settles_arm_bad {u : UnitView} {e : Step} {rest : List Step} {code : Nat} (steps : u.ch.noSteps = false)
    (hqueue : u.ch.queue = e :: rest) (harmed : u.ch.armed = .none)
    (hvalid : validate u.ch (p.wide c) e.record = some code)
    (hs : p.Settles k c { u with ch := { u.ch with armed := .removal .badStep code k.tb } } n p') :
    p.Settles k c u (n + 1) p' := by
  have harm := UnitView.turn_arm (x := p.context k c) steps hqueue harmed
  rw [UnitView.arm_bad (x := p.context k c) hvalid] at harm
  exact .turn harm rfl hs

end Part

/-! ### A step arrives at an IDLE channel -/

namespace Part
section Idle
variable {p : Part} {k : Clock} {c : ChanId} {q : RingId} {r : StepRecord}

/-- The IDLE channel of a step's arrival (R6). -/
structure ArrivesIdle (p : Part) (c : ChanId) : Prop where
  state : p.chans[c].state = .idle
  active : p.chans[c].active = none
  queue : p.chans[c].queue = []
  armed : p.chans[c].armed = .none
  halt : p.chans[c].halt = none
  evaluation : p.chans[c].evaluation = .none
  stale : p.chans[c].stale = false
  fetchFault : p.chans[c].fetchFault = false

variable (h : p.ArrivesIdle c)
include h

theorem ArrivesIdle.steps : p.chans[c].noSteps = false := Channel.steps_of_open (.inl h.state) h.halt

theorem ArrivesIdle.arrival_queue : (p.arrival c r).ch.queue = [⟨p.chans[c].fetchIndex, r⟩] := by
  have hjoined : (p.arrival c r).ch.queue = p.chans[c].queue ++ [⟨p.chans[c].fetchIndex, r⟩] := rfl
  rw [hjoined, h.queue]
  rfl

theorem ArrivesIdle.arrival_eq : p.arrival c r = { p.view c with ch := { p.chans[c] with
    queue := [(⟨p.chans[c].fetchIndex, r⟩ : Step)]
    fetchIndex := bump p.chans[c].fetchIndex p.chans[c].ringSize
    fetchInFlight := false, stale := false } } := by
  simp only [arrival, h.queue, List.nil_append]

/-- The armed step of an IDLE channel's arrival. -/
theorem ArrivesIdle.good {p' : Part} {n : Nat} (hvalid : validate p.chans[c] (p.wide c) r = none)
    (hs : p.Settles k c { p.arrival c r with ch := { (p.arrival c r).ch with armed := .good } } n p') (hn : n ≤ 31) :
    p.stepRead k c (some r) = p' :=
  stepRead_joins h.stale h.steps
    (settles_arm_good h.steps (h.arrival_queue (r := r)) h.armed ((validate_congr rfl rfl ..).trans hvalid) hs) (by omega)

theorem ArrivesIdle.starts (hvalid : validate p.chans[c] (p.wide c) r = none) (hdue : r.isDueNow k.tb)
    (hfree : p.pool.reservedBusy c = false) :
    p.stepRead k c (some r)
      = (p.withView c (p.arrival c r)).stepStarts c q k.tb ⟨p.chans[c].fetchIndex, r⟩ (r.isLate k.tb) false [] := by
  refine h.good hvalid ?_ (n := 2) (by omega)
  have hs := settles_due_starts (p := p) (k := k) (c := c) (q := q) (rest := [])
    (u := { p.arrival c r with ch := { (p.arrival c r).ch with armed := .good } }) h.steps (h.arrival_queue (r := r)) rfl
    h.active h.evaluation hdue hfree (by simp [Step.runsOn]) (by simp)
  exact stepStarts_congr (u := p.arrival c r) (lines := (p.arrival c r).lines)
    (ch := { (p.arrival c r).ch with armed := .good }) rfl rfl ▸ hs

theorem ArrivesIdle.held (hvalid : validate p.chans[c] (p.wide c) r = none) (hdue : r.isDueNow k.tb)
    (hbusy : p.pool.reservedBusy c = true) :
    p.stepRead k c (some r) = p.withView c ((p.arrival c r).stands .held (.due (r.isLate k.tb) true) .none) :=
  h.good hvalid (settles_due_held
    (u := { p.arrival c r with ch := { (p.arrival c r).ch with armed := .good } }) h.steps (h.arrival_queue (r := r)) rfl
    h.active h.evaluation hdue hbusy) (by omega)

theorem ArrivesIdle.early (hvalid : validate p.chans[c] (p.wide c) r = none) (hstart : r.start = 2)
    (hd : 0 < r.lateness k.tb ∧ r.lateness k.tb < 2 ^ 47) :
    p.stepRead k c (some r) = p.withView c ((p.arrival c r).stands .waiting .good (.atTime r.startTime)) :=
  h.good hvalid (settles_early
    (u := { p.arrival c r with ch := { (p.arrival c r).ch with armed := .good } }) h.steps (h.arrival_queue (r := r)) rfl
    h.active h.evaluation hstart hd) (by omega)

theorem ArrivesIdle.onMark (hvalid : validate p.chans[c] (p.wide c) r = none) (hstart : r.start = 3) :
    p.stepRead k c (some r)
      = p.withView c ((p.arrival c r).stands .waiting .good (.onMark r.source (r.expiry k.tb))) :=
  h.good hvalid (settles_onMark
    (u := { p.arrival c r with ch := { (p.arrival c r).ch with armed := .good } }) h.steps (h.arrival_queue (r := r)) rfl
    h.active h.evaluation hstart) (by omega)

theorem ArrivesIdle.skippedWaits (hvalid : validate p.chans[c] (p.wide c) r = none) (hskipped : r.isSkipped k.tb)
    (hshared : p.pool.hasShared = false) (hbusy : p.pool.reservedBusy c = true) :
    p.stepRead k c (some r) = p.withView c
      ((p.arrival c r).stands .held (.removal .lateSkipped (r.skippedValue k.tb) k.tb) .none) :=
  h.good hvalid (settles_skipped_waits (e := ⟨p.chans[c].fetchIndex, r⟩) (rest := [])
    (u := { p.arrival c r with ch := { (p.arrival c r).ch with armed := .good } }) h.steps (h.arrival_queue (r := r)) rfl
    h.active h.evaluation hskipped hshared hbusy) (by omega)

theorem ArrivesIdle.skipped (hvalid : validate p.chans[c] (p.wide c) r = none) (hskipped : r.isSkipped k.tb)
    (hbound : p.chans[c].bound = some q) (hroom : p.pool.hasShared = true ∨ p.pool.reservedBusy c = false) :
    p.stepRead k c (some r) = (p.withView c (p.arrival c r)).removalStaged c q p.pool.slotForReport k.tb
      ⟨p.chans[c].fetchIndex, r⟩ .lateSkipped (r.skippedValue k.tb) [] :=
  h.good hvalid (settles_skipped (q := q)
    (u := { p.arrival c r with ch := { (p.arrival c r).ch with armed := .good } }) h.steps (h.arrival_queue (r := r)) rfl
    h.active h.evaluation hskipped hbound hroom
    (settles_removed_last (u := p.arrival c r) h.steps h.active
      h.fetchFault)) (by omega)

/-- A step that fails validation at an IDLE channel whose report can be staged (R10). -/
theorem ArrivesIdle.bad {code : Nat} (hvalid : validate p.chans[c] (p.wide c) r = some code)
    (hbound : p.chans[c].bound = some q) (hroom : p.pool.hasShared = true ∨ p.pool.reservedBusy c = false) :
    p.stepRead k c (some r) = (p.withView c (p.arrival c r)).removalStaged c q p.pool.slotForReport k.tb
      ⟨p.chans[c].fetchIndex, r⟩ .badStep code [] := by
  refine stepRead_joins h.stale h.steps (settles_arm_bad h.steps (h.arrival_queue (r := r)) h.armed
    ((validate_congr rfl rfl ..).trans hvalid) (.turn (UnitView.turn_removes (q := q) h.steps (h.arrival_queue (r := r)) rfl
      hbound ?_) rfl (settles_removed_last (u := p.arrival c r) h.steps h.active
        h.fetchFault))) (by omega)
  exact (UnitView.canStage_iff (x := p.context k c) (u := p.arrival c r) h.active).mpr hroom

theorem ArrivesIdle.badWaits {code : Nat} (hvalid : validate p.chans[c] (p.wide c) r = some code)
    (hshared : p.pool.hasShared = false) (hbusy : p.pool.reservedBusy c = true) :
    p.stepRead k c (some r) = p.withView c
      ((p.arrival c r).stands .held (.removal .badStep code k.tb) .none) := by
  refine stepRead_joins h.stale h.steps (settles_arm_bad h.steps (h.arrival_queue (r := r)) h.armed
    ((validate_congr rfl rfl ..).trans hvalid) (.stop (UnitView.turn_removal_waits (x := p.context k c) h.steps
      (h.arrival_queue (r := r)) rfl ?_) (congrArg _ ?_))) (n := 1) (by omega)
  · exact (UnitView.canStage_eq_false_iff (x := p.context k c) (u := p.arrival c r) h.active).mpr ⟨hshared, hbusy⟩
  · exact UnitView.settle_stands
      (u := { p.arrival c r with ch := { (p.arrival c r).ch with armed := .removal .badStep code k.tb } })
      (Channel.derivedState_held
        (ch := { (p.arrival c r).ch with armed := .removal .badStep code k.tb }) h.steps h.active
        (h.arrival_queue (r := r)) h.evaluation) rfl h.evaluation

/-- The part after the removal report of the only step of an IDLE channel was staged (R10, R16, R17). -/
theorem ArrivesIdle.removed_eq {slot : SlotKind} {time : Ticks} {status : DoneStatus} {value : Nat} :
    (p.withView c (p.arrival c r)).removalStaged c q slot time ⟨p.chans[c].fetchIndex, r⟩ status value []
      = { p with
          chans := p.chans.set c { p.chans[c].afterAdmission with
            fetchIndex := bump p.chans[c].fetchIndex p.chans[c].ringSize, fetchInFlight := false, stale := false }
          pool := p.poolWith c q slot time (.stepDone
            { tag := r.tag, status := status
              flags :=
                { late := false, heldStart := false
                  underrun := decide (bump p.chans[c].fetchIndex p.chans[c].ringSize ≠ p.chans[c].tail), forced := false }
              value := value, sqHead := bump p.chans[c].fetchIndex p.chans[c].ringSize
              flushed := 0, fetchError := false, firstTag := 0, stats := none }) } := by
  have hactive : (p.arrival c r).ch.active = none := h.active
  have hdry : ((none : Option Step).isNone && ([] : List Step).isEmpty
      && decide ((p.arrival c r).ch.fetchIndex ≠ (p.arrival c r).ch.tail))
        = decide (bump p.chans[c].fetchIndex p.chans[c].ringSize ≠ p.chans[c].tail) := Bool.true_and _
  rw [removalStaged_withView, UnitView.removed, removedBody, hactive, hdry]
  have hsame : p.chans[c].afterAdmission
      = { p.chans[c].afterAdmission with state := .idle, queue := [], armed := .none } := by
    rw [← h.state, ← h.queue, ← h.armed]
    rfl
  rw [hsame]
  rfl

end Idle
end Part

end Sys2Proof.Machine
end

section
/-! PROOF. Step reads that return to an IDLE channel (R6, R8, R10 to R12, R16, R17, R77, R78, R81). -/

namespace Sys2Proof.Machine

/-- Settles O34: each outcome of a valid step at an IDLE channel. -/
theorem stepStartsOnAnIdleChannel : Obligations.StepStartsOnAnIdleChannel := by
  refine ⟨?_, ?_⟩
  · intro s w c answers p ch r e hstate hactive hqueue harmed hhalt hevaluation hstale hfault hfree hvalid hstart
    have idle : p.ArrivesIdle c := ⟨hstate, hactive, hqueue, harmed, hhalt, hevaluation, hstale, hfault⟩
    refine exec_stepReadReturn_close answers ((idle.starts (k := s.clock) (q := 0) hvalid (StepRecord.isDueNow_of_chain hstart) hfree).trans ?_)
    rw [StepRecord.isLate_of_chain hstart, Part.stepStarts_last]
    rfl
  · intro s w c q answers p ch r e next arrived queued d skipped hstate hactive hqueue harmed hhalt hevaluation hstale hfault
      hbound hvalid
    have idle : p.ArrivesIdle c := ⟨hstate, hactive, hqueue, harmed, hhalt, hevaluation, hstale, hfault⟩
    refine ⟨fun hstart hbusy => ?_, fun hstart hpos hlt => ?_, fun hstart hlate hfree => ?_, fun hstart hlate hbusy => ?_,
      fun hskipped hroom => ?_, fun hskipped hshared hbusy => ?_, fun source hstart hsource => ?_⟩
    · refine exec_stepReadReturn answers ((idle.held (k := s.clock) hvalid (StepRecord.isDueNow_of_chain hstart) hbusy).trans ?_) rfl
      rw [StepRecord.isLate_of_chain hstart, idle.arrival_eq, ← idle.evaluation]
      rfl
    · refine exec_stepReadReturn answers ((idle.early (k := s.clock) hvalid hstart ⟨hpos, hlt⟩).trans ?_) rfl
      rw [idle.arrival_eq]
      rfl
    · refine exec_stepReadReturn_close answers
        ((idle.starts (k := s.clock) (q := q) hvalid (StepRecord.isDueNow_of_late hstart hlate) hfree).trans ?_)
      rw [StepRecord.isLate_of_atTime hstart, Part.stepStarts_last]
      rfl
    · refine exec_stepReadReturn answers ((idle.held (k := s.clock) hvalid (StepRecord.isDueNow_of_late hstart hlate) hbusy).trans ?_) rfl
      rw [StepRecord.isLate_of_atTime hstart, idle.arrival_eq, ← idle.evaluation]
      rfl
    · refine exec_stepReadReturn answers ((idle.skipped (k := s.clock) hvalid hskipped hbound hroom).trans ?_) rfl
      rw [idle.removed_eq]
      rfl
    · refine exec_stepReadReturn answers ((idle.skippedWaits (k := s.clock) hvalid hskipped hshared hbusy).trans ?_) rfl
      rw [idle.arrival_eq, ← idle.evaluation]
      rfl
    · refine exec_stepReadReturn answers ((idle.onMark (k := s.clock) hvalid hstart).trans ?_) rfl
      have hsame : r.source = source := by
        refine Fin.ext ?_
        rw [hsource]
        exact Nat.mod_eq_of_lt (hsource ▸ source.isLt)
      rw [hsame, idle.arrival_eq]
      rfl

/-- Settles O35: the report is staged, or the channel is HELD with it. -/
theorem badStepIsRemoved : Obligations.BadStepIsRemoved := by
  intro s w c q code answers p ch r next hstate hactive hqueue harmed hhalt hevaluation hstale hfault hbound hvalid
  have idle : p.ArrivesIdle c := ⟨hstate, hactive, hqueue, harmed, hhalt, hevaluation, hstale, hfault⟩
  refine ⟨fun hroom => ?_, fun hshared hbusy => ?_⟩
  · refine exec_stepReadReturn answers ((idle.bad (k := s.clock) hvalid hbound hroom).trans ?_) rfl
    rw [idle.removed_eq]
    rfl
  · refine exec_stepReadReturn answers ((idle.badWaits (k := s.clock) hvalid hshared hbusy).trans ?_) rfl
    rw [idle.arrival_eq, ← idle.evaluation]
    rfl

end Sys2Proof.Machine
end

section
/-! PROOF. A failed step read: the channel is STOPPED with its FAULT staged or pending, at once or once its steps have run out
(R24, R25, R103). -/

namespace Sys2Proof.Machine

/-- The view once a report of the channel was composed at this event: staged, or pending where no slot can take it
(R106). -/
def UnitView.reported (u : UnitView) (c : ChanId) (q : RingId) (tb : Ticks) (body : EntryBody) : UnitView :=
  if u.pool.hasShared = true ∨ u.pool.reservedBusy c = false then
    { u with
      ch := u.ch.afterAdmission
      pool := u.pool.append q
        { slot := u.pool.slotForReport
          entry := { draft := { channel := c, time := tb, body := body }, seq := u.ch.seq, missed := u.ch.missed } } }
  else { u with ch := { u.ch with pendingReport := some { channel := c, time := tb, body := body } } }

namespace UnitView
variable {u : UnitView} {c : ChanId} {q : RingId} {tb : Ticks} {body : EntryBody}

theorem reported_room (h : u.pool.hasShared = true ∨ u.pool.reservedBusy c = false) : u.reported c q tb body = { u with
    ch := u.ch.afterAdmission
    pool := u.pool.append q
      { slot := u.pool.slotForReport
        entry := { draft := { channel := c, time := tb, body := body }, seq := u.ch.seq, missed := u.ch.missed } } } :=
  if_pos h

theorem reported_full (hshared : u.pool.hasShared = false) (hbusy : u.pool.reservedBusy c = true) :
    u.reported c q tb body
      = { u with ch := { u.ch with pendingReport := some { channel := c, time := tb, body := body } } } :=
  if_neg (by simp [hshared, hbusy])

end UnitView

namespace Part
variable {p : Part} {k : Clock} {c : ChanId} {q : RingId} {u : UnitView}

theorem reportComposed_withView {tb : Ticks} {body : EntryBody} :
    (p.withView c u).reportComposed c q tb body = p.withView c (u.reported c q tb body) := by
  have hpool : (p.withView c u).pool = u.pool := rfl
  by_cases hroom : u.pool.hasShared = true ∨ u.pool.reservedBusy c = false
  · rw [reportComposed, UnitView.reported, hpool, if_pos hroom, if_pos hroom, withView_getElem, poolWith_withView]
    exact withView_set_pool ..
  · rw [reportComposed, UnitView.reported, hpool, if_neg hroom, if_neg hroom, withView_getElem]
    exact withView_set ..

end Part

theorem UnitView.stopOnFault_eq {x : UnitContext} {u : UnitView} {q : RingId} (hactive : u.ch.active = none)
    (hbound : u.ch.bound = some q) : u.stopOnFault x
      = { u with ch := { u.ch with state := .stopped } }.reported x.id q x.clock.tb (.fault u.ch.fetchIndex) := by
  by_cases hroom : u.pool.hasShared = true ∨ u.pool.reservedBusy x.id = false
  · rw [stopOnFault, if_pos ((canStage_iff hactive).mpr hroom), stage_bound hbound, reported, if_pos hroom]
    rfl
  · rw [stopOnFault, if_neg (mt (canStage_iff hactive).mp hroom), reported, if_neg hroom]
    rfl

theorem UnitView.reported_shut {u : UnitView} {c : ChanId} {q : RingId} {tb : Ticks} {body : EntryBody} :
    (u.reported c q tb body).ch.state = u.ch.state ∧ (u.reported c q tb body).told = u.told := by
  unfold UnitView.reported
  split <;> exact ⟨rfl, rfl⟩

theorem UnitView.settle_reported {u : UnitView} {c : ChanId} {q : RingId} {tb : Ticks} {body : EntryBody}
    (hstopped : u.ch.state = .stopped) : (u.reported c q tb body).settle = u.settle.reported c q tb body := by
  have hstate : (u.reported c q tb body).ch.derivedState = .stopped := by
    rw [Channel.derivedState_of_shut (.inr (reported_shut.1.trans hstopped)), reported_shut.1, hstopped]
  have hbase : u.ch.derivedState = .stopped := by
    rw [Channel.derivedState_of_shut (.inr hstopped), hstopped]
  simp only [settle, hstate, hbase]
  simp only [reported]
  split <;> rfl

namespace Part
variable {p : Part} {k : Clock} {c : ChanId} {q : RingId} {u : UnitView}

/-- A faulted channel with nothing active and an empty window is STOPPED with its FAULT staged or pending (R25). -/
theorem settles_fault (steps : u.ch.noSteps = false) (hqueue : u.ch.queue = []) (hactive : u.ch.active = none)
    (hfault : u.ch.fetchFault = true) (hbound : u.ch.bound = some q) :
    p.Settles k c u 1 ((p.withView c { u.settle with ch := { u.ch with state := .stopped } }).reportComposed c q k.tb
      (.fault u.ch.fetchIndex)) := by
  have hturn := UnitView.turn_fault (x := p.context k c) steps hqueue hactive hfault
  rw [UnitView.stopOnFault_eq (q := q) hactive hbound] at hturn
  refine .turn hturn UnitView.reported_shut.2 (.stop (UnitView.turn_shut ?_) ?_)
  · simp [Channel.noSteps, UnitView.reported_shut.1]
  · rw [reportComposed_withView, UnitView.settle_reported rfl]
    rfl

/-- A read that fails behind an active step, or behind a step that waits, notes the error alone (R24). -/
theorem settles_goes_on (steps : u.ch.noSteps = false) (hpark : u.ending ≠ some true)
    (h : (u.ch.state = .active ∧ (∃ a, u.ch.active = some a ∧ (u.ch.queue = [] ∨ ∃ e rest, u.ch.queue = e :: rest
        ∧ u.ch.armed = .good ∧ e.record.start ≠ 1 ∧ ¬(a.record.kindOf = some .position ∧ a.record.count = 0))))
      ∨ u.ch.state = .waiting ∧ u.ch.active = none ∧ u.ch.queue ≠ [] ∧ u.ch.armed = .good ∧ u.ch.evaluation ≠ .none) :
    p.Settles k c u 0 (p.withView c u) := by
  obtain ⟨hstate, a, hactive, hqueue⟩ | ⟨hstate, hactive, hqueue, harmed, hevaluation⟩ := h
  · refine .stop ?_ (congrArg _ ?_)
    · obtain hempty | ⟨e, rest, hqueue, harmed, himmediate, hcontinuous⟩ := hqueue
      · exact UnitView.turn_empty steps hempty (by simp [hactive])
      · exact UnitView.turn_runs_on steps hqueue harmed hactive himmediate hcontinuous
    · rw [UnitView.settle_active steps hactive hpark, ← hstate]
  · obtain ⟨e, rest, hqueue⟩ := List.exists_cons_of_ne_nil hqueue
    refine .stop (UnitView.turn_evaluates steps hqueue harmed hactive hevaluation) (congrArg _ ?_)
    rw [UnitView.settle_of_not_park hpark, Channel.derivedState_waiting steps hactive hqueue hevaluation, ← hstate]

end Part

end Sys2Proof.Machine
end

section
/-! PROOF. The end of an active step, and what stands behind it (R11, R12, R15 to R18, R21, R25, R34, R77, R78, R81, R149). -/

namespace Sys2Proof.Machine

/-! ### The view that a step's end leaves (R15) -/

namespace UnitView
variable {x : UnitContext} {u : UnitView} {e : Step} {q : RingId} {status : DoneStatus} {forced : Bool}

/-- The view once the active step `e` has ended with the STEP_DONE `body` staged, its end behaviour still to come. -/
def ended (u : UnitView) (c : ChanId) (q : RingId) (tb : Ticks) (e : Step) (body : EntryBody) : UnitView :=
  { u with
    ch := { u.ch.afterAdmission with active := none, running := false }
    pool := u.pool.append q
      { slot := u.pool.slotForReport
        entry := { draft := { channel := c, time := tb, body := body }, seq := u.ch.seq, missed := u.ch.missed } }
    emitted := u.emitted || e.record.markEnd
    ending := if e.record.isOutput then some e.record.endPark else none }

theorem endActive_eq (hactive : u.ch.active = some e) (hbound : u.ch.bound = some q) (hfound : u.found = none) :
    u.endActive x status forced = u.ended x.id q x.clock.tb e (.stepDone (u.ch.doneBody e status forced)) := by
  have hoffer : u.endActive x status forced = offerDone x (.stepDone (u.ch.doneBody e status forced))
      { u with
        ch := { u.ch with active := none, running := false }
        emitted := u.emitted || e.record.markEnd
        ending := if e.record.isOutput then some e.record.endPark else none } := by
    unfold endActive
    rw [hactive]
    dsimp only
    rw [hfound]
    cases e.record.isOutput <;> rfl
  exact hoffer.trans (stage_bound (u := { u with
    ch := { u.ch with active := none, running := false }
    emitted := u.emitted || e.record.markEnd
    ending := if e.record.isOutput then some e.record.endPark else none }) hbound _)

/-- An output step that started at this event puts back the drives it found (R34, R84). -/
theorem endActive_found {b a : Drive} (hactive : u.ch.active = some e) (hbound : u.ch.bound = some q)
    (hfound : u.found = some (b, a)) (hout : e.record.isOutput = true) : u.endActive x status forced
      = { u.ended x.id q x.clock.tb e (.stepDone (u.ch.doneBody e status forced)) with
          lines := setDrives u.lines u.ch b a } := by
  have hoffer : u.endActive x status forced = offerDone x (.stepDone (u.ch.doneBody e status forced))
      { u with
        ch := { u.ch with active := none, running := false }
        lines := setDrives u.lines u.ch b a
        emitted := u.emitted || e.record.markEnd
        ending := if e.record.isOutput then some e.record.endPark else none } := by
    unfold endActive
    rw [hactive]
    dsimp only
    rw [hfound, hout]
  exact hoffer.trans (stage_bound (u := { u with
    ch := { u.ch with active := none, running := false }
    lines := setDrives u.lines u.ch b a
    emitted := u.emitted || e.record.markEnd
    ending := if e.record.isOutput then some e.record.endPark else none }) hbound _)

theorem parked_ended_lines {c : ChanId} {tb : Ticks} {body : EntryBody} :
    (u.ended c q tb e body).parked.lines = linesAfterEnd u.lines u.ch e.record := by
  simp only [parked, ended, linesAfterEnd]
  by_cases hout : e.record.isOutput = true
  · simp only [hout, if_true, Option.some.injEq, true_and]
    rfl
  · simp [hout]

end UnitView

namespace Channel
variable {ch : Channel} {e : Step} {status : DoneStatus} {forced : Bool}

theorem doneBody_ended (h : status ≠ .halted) :
    EntryBody.stepDone (ch.doneBody e status false) = endedBody ch e status := by
  have hnot : (status == DoneStatus.halted) = false := by simpa using h
  have hdry : ch.runsDry = decide (ch.queue = [] ∧ ch.fetchIndex ≠ ch.tail) := by
    rw [Bool.eq_iff_iff]
    simp [runsDry]
  simp only [doneBody, endedBody, hnot, hdry, stepValue, endValue, bump, Bool.not_false, Bool.true_and, Bool.false_and,
    Bool.false_eq_true, if_false]

theorem doneBody_halted {h : HaltRequest} (asked : ch.halt = some h) :
    EntryBody.stepDone (ch.doneBody e .halted forced) = haltedBody ch e h.flushed h.firstTag forced := by
  simp only [doneBody, haltedBody, stepValue, endValue, asked]
  rfl

end Channel

/-! ### The part that a step's end leaves, with nothing behind it -/

namespace Part
variable {p : Part} {k : Clock} {c : ChanId} {q : RingId} {u : UnitView} {e e2 : Step} {rest : List Step}
  {status : DoneStatus}

theorem stepEnded_withView {tb : Ticks} :
    (p.withView c u).stepEnded c q tb e status
      = p.withView c { (u.ended c q tb e (endedBody u.ch e status)).parked with
          ch := { (u.ended c q tb e (endedBody u.ch e status)).ch with state := .idle } } := by
  have hlines := UnitView.parked_ended_lines (u := u) (c := c) (q := q) (tb := tb) (e := e) (body := endedBody u.ch e status)
  rw [stepEnded, poolWith_withView, withView_getElem]
  simp only [withView, hlines, Vector.set_set]
  rw [show (u.ended c q tb e (endedBody u.ch e status)).parked.emitted = (u.emitted || e.record.markEnd) from rfl, marks_or]
  rfl

section Last
variable {body : EntryBody} (steps : u.ch.noSteps = false) (hqueue : u.ch.queue = [])
include steps hqueue

theorem settles_ended_last (hfault : u.ch.fetchFault = false) :
    p.Settles k c (u.ended c q k.tb e (endedBody u.ch e status)) 0 ((p.withView c u).stepEnded c q k.tb e status) := by
  refine .stop (UnitView.turn_empty steps hqueue fun _ => hfault) ?_
  rw [stepEnded_withView, UnitView.settle,
    Channel.derivedState_idle (ch := (u.ended c q k.tb e (endedBody u.ch e status)).ch) steps rfl hqueue]
  rfl

theorem settles_ended_fault (hfault : u.ch.fetchFault = true)
    (hbound : u.ch.bound = some q) :
    p.Settles k c (u.ended c q k.tb e (endedBody u.ch e status)) 1
      (Part.reportComposed
        { (p.withView c u).stepEnded c q k.tb e status with
          chans := ((p.withView c u).stepEnded c q k.tb e status).chans.set c
            { ((p.withView c u).stepEnded c q k.tb e status).chans[c] with state := .stopped } } c q k.tb
        (.fault u.ch.fetchIndex)) := by
  have hfaulted := settles_fault (p := p) (k := k) (c := c) (q := q)
    (u := u.ended c q k.tb e (endedBody u.ch e status)) steps hqueue rfl hfault hbound
  rw [stepEnded_withView, withView_set, withView_getElem]
  exact hfaulted

end Last

/-! ### The part that a step's end leaves, with a GOOD step behind it -/

theorem ended_reservedBusy {tb : Ticks} {body : EntryBody} : (u.ended c q tb e body).pool.reservedBusy c
    = (u.pool.reservedBusy c || !u.pool.hasShared) := by
  rw [UnitView.ended, Pool.reservedBusy_append]
  congr 1
  unfold Pool.slotForReport Staged.isReservedOf
  cases u.pool.hasShared <;> simp

theorem ended_hasShared {tb : Ticks} {body : EntryBody} (h : u.pool.hasShared = false) :
    (u.ended c q tb e body).pool.hasShared = false := by
  simp only [Pool.hasShared, decide_eq_false_iff_not] at h ⊢
  rw [UnitView.ended, Pool.sharedUsed_append]
  omega

section Followed
variable {tb : Ticks}

/-- The part of a step that hands over: its report is in a shared slot, and the step behind it starts. -/
theorem stepHandsOver_withView {late : Bool} (hshared : u.pool.hasShared = true) :
    (p.withView c u).stepHandsOver c q tb e status e2 late rest
      = (p.withView c (u.ended c q tb e (endedBody u.ch e status))).stepStarts c q tb e2 late false rest := by
  have hslot : u.pool.slotForReport = .shared := if_pos hshared
  have hstarts := stepStarts_congr (p := p) (c := c) (q := q) (e := e2) (rest := rest) (tb := tb) (late := late)
    (held := false) (u := u.ended c q tb e (endedBody u.ch e status)) (ch := u.ch.afterAdmission) (lines := u.lines) rfl rfl
  rw [stepHandsOver, ← hstarts, poolWith_withView, withView_getElem, ← hslot]
  congr 1
  simp only [withView, Vector.set_set]
  rw [show (u.ended c q tb e (endedBody u.ch e status)).emitted = (u.emitted || e.record.markEnd) from rfl, marks_or]
  rfl

/-- The part of a step whose report took the reserved slot, for which the step behind it is HELD. -/
theorem stepHolds_withView {late : Bool} (hshared : u.pool.hasShared = false) (hqueue : u.ch.queue = e2 :: rest) (hevaluation : u.ch.evaluation = .none) :
    (p.withView c u).stepHolds c q tb e status e2 late rest
      = p.withView c ((u.ended c q tb e (endedBody u.ch e status)).stands .held (.due late true) .none) := by
  have hslot : u.pool.slotForReport = .reserved := if_neg (by simp [hshared])
  have hlines := UnitView.parked_ended_lines (u := u) (c := c) (q := q) (tb := tb) (e := e) (body := endedBody u.ch e status)
  rw [stepHolds, poolWith_withView, withView_getElem, ← hslot, ← hqueue, ← hevaluation]
  simp only [withView, Vector.set_set, UnitView.stands, hlines]
  rw [show (u.ended c q tb e (endedBody u.ch e status)).parked.emitted = (u.emitted || e.record.markEnd) from rfl, marks_or]
  rfl

theorem stepFollowed_early (h : e2.record.start = 2 ∧ 0 < e2.record.lateness tb ∧ e2.record.lateness tb < 2 ^ 47) :
    (p.withView c u).stepFollowed c q tb e status e2 rest
      = p.withView c ((u.ended c q tb e (endedBody u.ch e status)).stands .waiting .good (.atTime e2.record.startTime)) := by
  rw [stepFollowed]
  dsimp only
  rw [if_pos h, stepEnded_withView, withView_set, withView_getElem]
  rfl

theorem stepFollowed_onMark (h : e2.record.start = 3) :
    (p.withView c u).stepFollowed c q tb e status e2 rest
      = p.withView c ((u.ended c q tb e (endedBody u.ch e status)).stands .waiting .good
          (.onMark e2.record.source (e2.record.expiry tb))) := by
  have hnot : e2.record.start ≠ 2 := by simp [h]
  rw [stepFollowed]
  dsimp only
  rw [if_neg (fun h2 => hnot h2.1), if_pos h, stepEnded_withView, withView_set, withView_getElem]
  rfl

/-- A removal takes nothing from the channel's state before it. -/
theorem removalStaged_restated {v : UnitView} {slot : SlotKind} {time : Ticks} {value : Nat} (state : ChState) :
    (p.withView c { v with ch := { v.ch with state := state } }).removalStaged c q slot time e status value rest
      = (p.withView c v).removalStaged c q slot time e status value rest := by
  rw [removalStaged_withView, removalStaged_withView]
  rfl

theorem stepFollowed_skipped (h : e2.record.isSkipped tb) (hshared : u.pool.hasShared = true) :
    (p.withView c u).stepFollowed c q tb e status e2 rest
      = (p.withView c (u.ended c q tb e (endedBody u.ch e status)).parked).removalStaged c q
          (u.ended c q tb e (endedBody u.ch e status)).pool.slotForReport tb e2 .lateSkipped (e2.record.skippedValue tb)
          rest := by
  obtain ⟨hstart, hle, -⟩ := id h
  have hshared' : (p.withView c u).pool.hasShared = true := hshared
  rw [stepFollowed]
  dsimp only
  rw [if_neg (fun h2 => absurd h2.2.2 (by omega)), if_neg (by simp [hstart]), if_pos h, if_pos hshared', stepEnded_withView]
  exact removalStaged_restated (v := (u.ended c q tb e (endedBody u.ch e status)).parked) .idle

theorem stepFollowed_skipped_waits (h : e2.record.isSkipped tb) (hshared : u.pool.hasShared = false) :
    (p.withView c u).stepFollowed c q tb e status e2 rest
      = p.withView c ((u.ended c q tb e (endedBody u.ch e status)).stands .held
          (.removal .lateSkipped (e2.record.skippedValue tb) tb) .none) := by
  obtain ⟨hstart, hle, -⟩ := id h
  have hshared' : ¬(p.withView c u).pool.hasShared = true := by simp [hshared]
  rw [stepFollowed]
  dsimp only
  rw [if_neg (fun h2 => absurd h2.2.2 (by omega)), if_neg (by simp [hstart]), if_pos h, if_neg hshared', stepEnded_withView,
    withView_set, withView_getElem]
  rfl

theorem stepFollowed_due (h : e2.record.isDueNow tb) (hshared : u.pool.hasShared = true) :
    (p.withView c u).stepFollowed c q tb e status e2 rest
      = (p.withView c (u.ended c q tb e (endedBody u.ch e status))).stepStarts c q tb e2 (e2.record.isLate tb) false rest := by
  obtain ⟨hearly, hmark, hskipped⟩ := h
  have hshared' : (p.withView c u).pool.hasShared = true := hshared
  rw [stepFollowed]
  dsimp only
  rw [if_neg hearly, if_neg hmark, if_neg hskipped, if_pos hshared', stepHandsOver_withView hshared]

theorem stepFollowed_due_held (h : e2.record.isDueNow tb) (hshared : u.pool.hasShared = false)
    (hqueue : u.ch.queue = e2 :: rest) (hevaluation : u.ch.evaluation = .none) :
    (p.withView c u).stepFollowed c q tb e status e2 rest
      = p.withView c ((u.ended c q tb e (endedBody u.ch e status)).stands .held (.due (e2.record.isLate tb) true) .none) := by
  obtain ⟨hearly, hmark, hskipped⟩ := h
  have hshared' : ¬(p.withView c u).pool.hasShared = true := by simp [hshared]
  rw [stepFollowed]
  dsimp only
  rw [if_neg hearly, if_neg hmark, if_neg hskipped, if_neg hshared', stepHolds_withView hshared hqueue hevaluation]

end Followed

/-- What stands behind a step that ended, armed GOOD, proceeds at the same event (R11, R12, R15, R18). -/
theorem settles_followed (steps : u.ch.noSteps = false) (hqueue : u.ch.queue = e2 :: rest) (harmed : u.ch.armed = .good)
    (hevaluation : u.ch.evaluation = .none) (hbound : u.ch.bound = some q) (hruns : e2.runsOn rest)
    (hskip : e2.record.isSkipped k.tb → rest = [] ∧ u.ch.fetchFault = false)
    (hfree : u.pool.hasShared = true → u.pool.reservedBusy c = false) :
    p.Settles k c (u.ended c q k.tb e (endedBody u.ch e status)) (2 * rest.length + 2)
      ((p.withView c u).stepFollowed c q k.tb e status e2 rest) := by
  have hbusy := ended_reservedBusy (u := u) (c := c) (q := q) (tb := k.tb) (e := e) (body := endedBody u.ch e status)
  by_cases hearly : e2.record.start = 2 ∧ 0 < e2.record.lateness k.tb ∧ e2.record.lateness k.tb < 2 ^ 47
  · rw [stepFollowed_early hearly]
    exact (settles_early (p := p) (k := k) (u := u.ended c q k.tb e (endedBody u.ch e status)) steps hqueue harmed rfl
      hevaluation hearly.1 hearly.2).mono (by omega)
  by_cases hmark : e2.record.start = 3
  · rw [stepFollowed_onMark hmark]
    exact (settles_onMark (p := p) (k := k) (u := u.ended c q k.tb e (endedBody u.ch e status)) steps hqueue harmed rfl
      hevaluation hmark).mono (by omega)
  by_cases hskipped : e2.record.isSkipped k.tb
  · obtain ⟨rfl, hfault⟩ := hskip hskipped
    cases hshared : u.pool.hasShared with
    | true =>
      rw [stepFollowed_skipped hskipped hshared]
      refine settles_skipped (p := p) (k := k) (u := u.ended c q k.tb e (endedBody u.ch e status)) steps hqueue harmed rfl
        hevaluation hskipped hbound (.inr ?_) (settles_removed_last (u := u.ended c q k.tb e (endedBody u.ch e status)) steps
          rfl hfault)
      rw [hbusy, hfree hshared, hshared]
      rfl
    | false =>
      rw [stepFollowed_skipped_waits hskipped hshared]
      refine (settles_skipped_waits (p := p) (k := k) (u := u.ended c q k.tb e (endedBody u.ch e status)) steps hqueue harmed
        rfl hevaluation hskipped (ended_hasShared hshared) ?_).mono (by omega)
      rw [hbusy, hshared]
      simp
  have hdue : e2.record.isDueNow k.tb := ⟨hearly, hmark, hskipped⟩
  cases hshared : u.pool.hasShared with
  | true =>
    rw [stepFollowed_due hdue hshared]
    refine settles_due_starts (p := p) (k := k) (u := u.ended c q k.tb e (endedBody u.ch e status)) steps hqueue harmed rfl
      hevaluation hdue ?_ hruns (fun _ => hbound)
    rw [hbusy, hfree hshared, hshared]
    rfl
  | false =>
    rw [stepFollowed_due_held hdue hshared hqueue hevaluation]
    refine (settles_due_held (p := p) (k := k) (u := u.ended c q k.tb e (endedBody u.ch e status)) steps hqueue harmed rfl
      hevaluation hdue ?_).mono (by omega)
    rw [hbusy, hshared]
    simp

end Part

end Sys2Proof.Machine
end

section
/-! PROOF. A step that a halt request ends (R15, R16, R20 to R22, R89, R149). -/

namespace Sys2Proof.Machine

/-- The channel holds a halt request, and so has nothing behind its active step (R20). -/
structure Channel.Halting (ch : Channel) (e : Step) (h : HaltRequest) (q : RingId) : Prop where
  halt : ch.halt = some h
  active : ch.active = some e
  bound : ch.bound = some q
  queue : ch.queue = []
  armed : ch.armed = .none
  evaluation : ch.evaluation = .none

theorem Channel.halting_of_law {ch : Channel} {e : Step} {h : HaltRequest} {q : RingId} (law : ch.Law) (hhalt : ch.halt = some h)
    (hactive : ch.active = some e) (hbound : ch.bound = some q) : ch.Halting e h q := by
  obtain ⟨-, -, -, -, halts, -, evaluates, armed⟩ := law
  obtain ⟨-, hqueue⟩ := halts (by simp [hhalt])
  refine ⟨hhalt, hactive, hbound, hqueue, armed hqueue, ?_⟩
  by_contra hne
  exact (evaluates hne).2.2 hqueue

/-- The view of a unit whose step ended HALTED under the request `h`. -/
def UnitView.halted (u : UnitView) (c : ChanId) (q : RingId) (tb : Ticks) (e : Step) (h : HaltRequest) (forced : Bool) :
    UnitView :=
  { u.ended c q tb e (haltedBody u.ch e h.flushed h.firstTag forced) with
    ch := (haltedChannel u.ch h.close).afterAdmission
    lines := linesAfterHalt u.lines c u.ch e.record h.close
    told := some { isFlush := false, flushed := h.flushed, sqHead := u.ch.fetchIndex } }

theorem UnitView.settle_endHalted {x : UnitContext} {u : UnitView} {e : Step} {h : HaltRequest} {q : RingId} {forced : Bool}
    (halting : u.ch.Halting e h q) (hfound : u.found = none) :
    (u.endHalted x forced).settle = u.halted x.id q x.clock.tb e h forced := by
  obtain ⟨hhalt, hactive, hbound, hqueue, harmed, hevaluation⟩ := halting
  have hlines := parked_ended_lines (u := u) (c := x.id) (q := q) (tb := x.clock.tb) (e := e)
    (body := haltedBody u.ch e h.flushed h.firstTag forced)
  simp only [endHalted, hhalt, endActive_eq hactive hbound hfound, Channel.doneBody_halted hhalt]
  cases hclose : h.close with
  | false =>
    simp only [stopNow, halted, haltedChannel, linesAfterHalt, hclose, Bool.false_eq_true, if_false, ← hlines, settle, parked]
    rw [Channel.derivedState_of_shut (.inr rfl), ← hqueue, ← harmed, ← hevaluation]
    rfl
  | true =>
    simp only [stopNow, halted, haltedChannel, linesAfterHalt, hclose, if_true, settle, closeNow]
    rw [Channel.derivedState_of_shut (.inl (.inl rfl))]
    have hundriven : ∀ (l : Vector LineEntry 16) (ch : Channel), ch.bLine = none → ch.aLine = none →
        setDrives l ch .none .none = l := by
      intro l ch hb ha
      simp only [setDrives, hb, ha, updateLine]
    rw [hundriven _ _ rfl rfl, ite_self]
    rfl

namespace Part
variable {p : Part} {k : Clock} {c : ChanId} {q : RingId} {u : UnitView} {e : Step} {h : HaltRequest} {forced : Bool}

/-- The part once a channel has carried out its halt request, and the admin unit has heard of it (R21, R149). -/
theorem stepHalted_withView {tb : Ticks} : (p.withView c u).stepHalted c q tb e h forced
    = (p.withView c (u.halted c q tb e h forced)).hearHalt c (u.halted c q tb e h forced).told := by
  have hwaits : (p.withView c (u.halted c q tb e h forced)).waitsOnChannel c = true
      ↔ (p.withView c u).admin.unit = .waiting ∧ (p.withView c u).admin.waitingOn = .channel c := by
    simp [waitsOnChannel]
  have hparts : { p.withView c u with
      chans := (p.withView c u).chans.set c (haltedChannel u.ch h.close).afterAdmission
      lines := linesAfterHalt (p.withView c u).lines c u.ch e.record h.close
      pool := (p.withView c u).poolWith c q u.pool.slotForReport tb (haltedBody u.ch e h.flushed h.firstTag forced)
      marks := if e.record.markEnd then (p.withView c u).marks.set c true else (p.withView c u).marks }
      = p.withView c (u.halted c q tb e h forced) := by
    rw [poolWith_withView]
    simp only [withView, Vector.set_set]
    rw [show (u.halted c q tb e h forced).emitted = (u.emitted || e.record.markEnd) from rfl, marks_or]
    rfl
  rw [stepHalted, withView_getElem, withView_pool, hparts]
  have hhears : (p.withView c (u.halted c q tb e h forced)).hearHalt c (u.halted c q tb e h forced).told
      = if (p.withView c (u.halted c q tb e h forced)).waitsOnChannel c then
          (p.withView c (u.halted c q tb e h forced)).complete .ok
            ⟨1, BitVec.ofNat 32 h.flushed, BitVec.ofNat 32 u.ch.fetchIndex, 0⟩
        else p.withView c (u.halted c q tb e h forced) := rfl
  rw [hhears]
  simp only [hwaits]

theorem atUnit_halted {f : UnitContext → UnitView → UnitView}
    (hf : f (p.context k c) (p.view c) = u.endHalted (p.context k c) forced) (halting : u.ch.Halting e h q)
    (hfound : u.found = none) : p.atUnit k c f = (p.withView c u).stepHalted c q k.tb e h forced := by
  rw [stepHalted_withView]
  simp only [atUnit, hf, UnitView.settle_endHalted halting hfound]
  rfl

end Part

end Sys2Proof.Machine
end

section
/-! PROOF. What a step's boundary decides, as an event of its unit leaves the part (R15, R18, R21, R25, R28, R47). -/

namespace Sys2Proof.Machine

/-- The active step `e` stands at the end that an event brings it: nothing has ended or started before it at the event. -/
structure UnitView.Ends (u : UnitView) (e : Step) (q : RingId) : Prop where
  halt : u.ch.halt = none
  state : u.ch.state = .active
  active : u.ch.active = some e
  bound : u.ch.bound = some q
  found : u.found = none
  ending : u.ending = none
  told : u.told = none

namespace UnitView
variable {x : UnitContext} {u : UnitView} {e : Step} {q : RingId} {status : DoneStatus}

theorem Ends.steps (h : u.Ends e q) : u.ch.noSteps = false := Channel.steps_of_open (.inr (.inr (.inl h.state))) h.halt

theorem Ends.nextFromZero (h : u.Ends e q) : u.nextFromZero.Ends e q :=
  ⟨h.halt, h.state, h.active, h.bound, h.found, h.ending, h.told⟩

theorem Ends.endActive (h : u.Ends e q) (hstatus : status ≠ .halted) :
    u.endActive x status false = u.ended x.id q x.clock.tb e (endedBody u.ch e status) := by
  rw [endActive_eq h.active h.bound h.found, Channel.doneBody_ended hstatus]

theorem Ends.settle (h : u.Ends e q) : u.settle = u := by
  rw [settle_active h.steps h.active (by simp [h.ending]), ← h.state]

end UnitView

namespace Part
variable {p : Part} {k : Clock} {c : ChanId} {q : RingId} {u : UnitView} {e e2 : Step} {rest : List Step}
  {status : DoneStatus} {f : UnitContext → UnitView → UnitView}

theorem atUnit_ends {p' : Part} {n : Nat} (ends : u.Ends e q) (hstatus : status ≠ .halted)
    (hf : f (p.context k c) (p.view c) = u.endAndHandOver (p.context k c) status)
    (hs : p.Settles k c (u.ended c q k.tb e (endedBody u.ch e status)) n p') (hn : n ≤ 32) : p.atUnit k c f = p' := by
  refine atUnit_handOver (u := u.ended c q k.tb e (endedBody u.ch e status)) ?_ ends.told hs hn
  rw [hf, UnitView.endAndHandOver, ends.endActive hstatus]
  rfl

theorem atUnit_ends_last (ends : u.Ends e q) (hstatus : status ≠ .halted)
    (hf : f (p.context k c) (p.view c) = u.endAndHandOver (p.context k c) status) (hqueue : u.ch.queue = [])
    (hfault : u.ch.fetchFault = false) : p.atUnit k c f = (p.withView c u).stepEnded c q k.tb e status :=
  atUnit_ends ends hstatus hf (settles_ended_last ends.steps hqueue hfault) (by omega)

theorem atUnit_ends_fault (ends : u.Ends e q) (hstatus : status ≠ .halted)
    (hf : f (p.context k c) (p.view c) = u.endAndHandOver (p.context k c) status) (hqueue : u.ch.queue = [])
    (hfault : u.ch.fetchFault = true) : p.atUnit k c f = Part.reportComposed
      { (p.withView c u).stepEnded c q k.tb e status with
        chans := ((p.withView c u).stepEnded c q k.tb e status).chans.set c
          { ((p.withView c u).stepEnded c q k.tb e status).chans[c] with state := .stopped } } c q k.tb
      (.fault u.ch.fetchIndex) :=
  atUnit_ends ends hstatus hf (settles_ended_fault ends.steps hqueue hfault ends.bound) (by omega)

theorem atUnit_followed (ends : u.Ends e q) (hstatus : status ≠ .halted)
    (hf : f (p.context k c) (p.view c) = u.endAndHandOver (p.context k c) status) (hqueue : u.ch.queue = e2 :: rest)
    (hroom : u.ch.window.length ≤ 4) (harmed : u.ch.armed = .good) (hevaluation : u.ch.evaluation = .none)
    (hruns : e2.runsOn rest) (hskip : e2.record.isSkipped k.tb → rest = [] ∧ u.ch.fetchFault = false)
    (hfree : u.pool.hasShared = true → u.pool.reservedBusy c = false) :
    p.atUnit k c f = (p.withView c u).stepFollowed c q k.tb e status e2 rest := by
  have hlength : rest.length ≤ 2 := by
    simp only [Channel.window, ends.active, hqueue, Option.toList_some, List.length_append, List.length_cons, List.length_nil]
      at hroom
    omega
  exact atUnit_ends ends hstatus hf (settles_followed ends.steps hqueue harmed hevaluation ends.bound hruns hskip hfree)
    (by omega)

end Part

/-! ### Boundaries -/

namespace UnitView
variable {x : UnitContext} {u : UnitView} {r : StepRecord} {natural : Option DoneStatus} {goOn : UnitView → UnitView}

theorem boundary_halts {h : HaltRequest} (asked : u.ch.halt = some h) :
    u.boundary x r natural goOn = u.endHalted x false := if_pos (by rw [asked]; rfl)

theorem boundary_ends {status : DoneStatus} (hhalt : u.ch.halt = none)
    (h : natural = some status ∨ natural = none ∧ r.count = 0 ∧ u.ch.armed.isGood = true ∧ status = .superseded) :
    u.boundary x r natural goOn = u.endAndHandOver x status := by
  have hnone : u.ch.halt.isSome = false := by simp [hhalt]
  rcases h with rfl | ⟨rfl, hcount, hgood, rfl⟩
  · simp only [boundary, hnone, Bool.false_eq_true, if_false]
  · simp only [boundary, hnone, StepRecord.continuous, hcount, hgood, BEq.rfl, Bool.and_self, Bool.false_eq_true, if_false,
      if_true]

theorem boundary_goes_on (hhalt : u.ch.halt = none) (hnatural : natural = none)
    (h : r.count = 0 → u.ch.armed.isGood = false) : u.boundary x r natural goOn = goOn u := by
  have hnone : u.ch.halt.isSome = false := by simp [hhalt]
  have hstays : (r.continuous && u.ch.armed.isGood) = false := by
    by_cases hcount : r.count = 0
    · rw [h hcount, Bool.and_false]
    · rw [StepRecord.continuous, beq_eq_false_iff_ne.2 hcount, Bool.false_and]
  simp only [boundary, hnone, hnatural, hstays, Bool.false_eq_true, if_false]

end UnitView

/-- A step's own end at a count that it reached (R28, R47). -/
theorem StepRecord.countReached_iff {r : StepRecord} {n : Nat} :
    r.countReached n = true ↔ r.count ≠ 0 ∧ n = r.count.toNat := by
  simp [countReached, continuous]

/-! ### Events of the units -/

theorem State.onPart_unitEvent {s : State} {c : ChanId} {due : Bool} {f : UnitContext → UnitView → UnitView} {q : Part}
    (hdue : due = true) (hq : s.part.atUnit s.clock c f = q) :
    (Host.Outcome.next (s.onPart fun k p => p.unitEvent k c due f) : Host.Outcome State Fault Refusal)
      = .next (s.withPart (q.closeStep s.clock s.part.marks)) := by
  unfold State.onPart
  dsimp only
  rw [Part.unitEvent, if_pos hdue, hq]
  rfl

theorem exec_cycleEnd {s : State} {c : ChanId} {e : Step} {q : Part} (hactive : s.part.chans[c].active = some e)
    (hrunning : s.part.chans[c].running = true) (hcounted : s.part.chans[c].counted = false)
    (hout : e.record.isOutput = true) (hphase : s.part.chans[c].phase + 1 = 2 ^ e.record.prescale.toNat)
    (hcounter : s.part.chans[c].counter = e.record.top.toNat) (hq : s.part.atUnit s.clock c UnitView.cycleEnd = q) :
    exec (.cycleEnd c) s = .next (s.withPart (q.closeStep s.clock s.part.marks)) :=
  State.onPart_unitEvent ((Channel.cycleEndDue_iff hactive).2 ⟨hrunning, hout, ⟨hcounted, hphase⟩, hcounter⟩) hq

end Sys2Proof.Machine
end

section
/-! PROOF. CYCLE_END of an output step (R13, R15 to R18, R20, R21, R25, R28). -/

namespace Sys2Proof.Machine

/-- A count that stops at 2^32 - 1 (R28, R45). -/
abbrev nextCount (n : Nat) : Nat := if n < 4294967295 then n + 1 else n

theorem addUpTo_countLimit (n : Nat) : addUpTo countLimit n = nextCount n := rfl

namespace Part
variable {p : Part} {k : Clock} {c : ChanId} {e : Step} {q : RingId}

/-- The view of an output step once it has counted a cycle (R28, R32). -/
def cycled (p : Part) (c : ChanId) (e : Step) : UnitView :=
  { p.view c with
    ch := { p.chans[c] with
      cycleCount := nextCount p.chans[c].cycleCount, oddCycle := !p.chans[c].oddCycle }
    emitted := false || e.record.markCycle }

theorem cycleEnd_eq (hactive : p.chans[c].active = some e) : UnitView.cycleEnd (p.context k c) (p.view c)
    = (p.cycled c e).boundary (p.context k c) e.record
        (if e.record.countReached (nextCount p.chans[c].cycleCount) then some .done else none)
        UnitView.nextFromZero := by
  have hview : (p.view c).ch.active = some e := hactive
  unfold UnitView.cycleEnd
  rw [hview]
  simp only [addUpTo_countLimit]
  rfl

theorem cycled_ends (hhalt : p.chans[c].halt = none) (hstate : p.chans[c].state = .active)
    (hactive : p.chans[c].active = some e) (hbound : p.chans[c].bound = some q) : (p.cycled c e).Ends e q :=
  ⟨hhalt, hstate, hactive, hbound, rfl, rfl, rfl⟩

/-- A step whose cycles are done, or that is continuous and has a GOOD step behind it, ends (R18, R28). -/
theorem cycleEnd_ends {status : DoneStatus} (hhalt : p.chans[c].halt = none) (hactive : p.chans[c].active = some e)
    (h : e.record.count ≠ 0 ∧ nextCount p.chans[c].cycleCount = e.record.count.toNat ∧ status = .done
      ∨ e.record.count = 0 ∧ p.chans[c].armed.isGood = true ∧ status = .superseded) :
    UnitView.cycleEnd (p.context k c) (p.view c) = (p.cycled c e).endAndHandOver (p.context k c) status := by
  rw [cycleEnd_eq hactive]
  refine UnitView.boundary_ends hhalt ?_
  obtain ⟨hcount, hreached, rfl⟩ | ⟨hcount, hgood, rfl⟩ := h
  · exact .inl (if_pos (StepRecord.countReached_iff.2 ⟨hcount, hreached⟩))
  · exact .inr ⟨if_neg fun h => (StepRecord.countReached_iff.1 h).1 hcount, hcount, hgood, rfl⟩

theorem cycleEnd_goes_on (hhalt : p.chans[c].halt = none) (hactive : p.chans[c].active = some e)
    (h : e.record.count = 0 ∧ p.chans[c].armed.isGood = false
      ∨ e.record.count ≠ 0 ∧ nextCount p.chans[c].cycleCount ≠ e.record.count.toNat) :
    UnitView.cycleEnd (p.context k c) (p.view c) = (p.cycled c e).nextFromZero := by
  rw [cycleEnd_eq hactive]
  refine UnitView.boundary_goes_on hhalt (if_neg fun hreached => ?_) fun hcount => ?_
  · obtain ⟨hcount, hequal⟩ := StepRecord.countReached_iff.1 hreached
    rcases h with ⟨hzero, -⟩ | ⟨-, hne⟩
    · exact hcount hzero
    · exact hne hequal
  · rcases h with ⟨-, hgood⟩ | ⟨hne, -⟩
    · exact hgood
    · exact absurd hcount hne

end Part

namespace Part
variable {p : Part} {k : Clock} {c : ChanId} {e e2 e3 : Step} {q : RingId} {u : UnitView} {rest : List Step}
  {status : DoneStatus} {f : UnitContext → UnitView → UnitView}

/-- An output step proceeds behind a step that is removed LATE_SKIPPED as the active step ends (R78). -/
theorem atUnit_followed_removed (ends : u.Ends e q) (hstatus : status ≠ .halted)
    (hf : f (p.context k c) (p.view c) = u.endAndHandOver (p.context k c) status) (hqueue : u.ch.queue = e2 :: e3 :: rest)
    (hroom : u.ch.window.length ≤ 4) (harmed : u.ch.armed = .good) (hevaluation : u.ch.evaluation = .none)
    (hskipped : e2.record.isSkipped k.tb) (hshared : u.pool.hasShared = true) (hfree : u.pool.reservedBusy c = false)
    (hvalid : validate u.ch (p.wide c) e3.record = none) (hout : e3.record.isOutput = true)
    (hstart : e3.record.start = 0 ∨ e3.record.start = 1) (hruns : e3.runsOn rest) :
    p.atUnit k c f = ((p.withView c u).stepFollowed c q k.tb e status e2 (e3 :: rest)).chainProceeds c q k.tb e3 rest := by
  have hlength : rest.length ≤ 1 := by
    simp only [Channel.window, ends.active, hqueue, Option.toList_some, List.length_append, List.length_cons, List.length_nil]
      at hroom
    omega
  have hbusy := ended_reservedBusy (u := u) (c := c) (q := q) (tb := k.tb) (e := e) (body := endedBody u.ch e status)
  rw [hfree, hshared] at hbusy
  rw [stepFollowed_skipped hskipped hshared]
  refine atUnit_ends ends hstatus hf (settles_skipped (p := p) (k := k) (c := c) (q := q)
    (u := u.ended c q k.tb e (endedBody u.ch e status)) ends.steps hqueue harmed rfl hevaluation hskipped ends.bound
    (.inr hbusy) (settles_removed_chain (u := u.ended c q k.tb e (endedBody u.ch e status)) ends.steps rfl (.inr hout)
      hevaluation ((validate_congr rfl rfl ..).trans hvalid) hstart hruns ends.bound)) (by omega)

theorem settles_preempted {b a : Drive} (steps : u.ch.noSteps = false) (hactive : u.ch.active = some e)
    (hqueue : u.ch.queue = [e2]) (harmed : u.ch.armed = .good) (hbound : u.ch.bound = some q)
    (hevaluation : u.ch.evaluation = .none) (hfound : u.found = some (b, a)) (hout : e.record.isOutput = true)
    (hstart : e2.record.start = 1) (hout2 : e2.record.isOutput = true) (hshared : u.pool.hasShared = true)
    (hfree : u.pool.reservedBusy c = false) :
    p.Settles k c u 3 ((p.withView c u).stepHandsOver c q k.tb e .preempted e2) := by
  have hbusy := ended_reservedBusy (u := u) (c := c) (q := q) (tb := k.tb) (e := e) (body := endedBody u.ch e .preempted)
  rw [hfree, hshared] at hbusy
  have hturn := UnitView.turn_preempt (x := p.context k c) steps hqueue harmed hactive hstart
  rw [UnitView.endActive_found hactive hbound hfound hout, Channel.doneBody_ended (by decide)] at hturn
  have hstarts := settles_due_starts (p := p) (k := k) (c := c) (q := q) (rest := [])
    (u := { u.ended c q k.tb e (endedBody u.ch e .preempted) with lines := setDrives u.lines u.ch b a })
    steps hqueue harmed rfl hevaluation (StepRecord.isDueNow_of_chain (.inr hstart)) hbusy (by simp [Step.runsOn]) (by simp)
  have hsame := stepStarts_congr (p := p) (c := c) (q := q) (e := e2) (rest := []) (tb := k.tb) (late := false) (held := false)
    (u := u.ended c q k.tb e (endedBody u.ch e .preempted))
    (ch := (u.ended c q k.tb e (endedBody u.ch e .preempted)).ch) (lines := setDrives u.lines u.ch b a) rfl
    (linesAtStart_setDrives _ _ hout2 ..)
  rw [StepRecord.isLate_of_chain (.inr hstart)] at hstarts
  rw [stepHandsOver_withView hshared, ← hsame]
  exact .turn hturn rfl hstarts

theorem settles_start_preempted (steps : u.ch.noSteps = false) (hstate : u.ch.state = .active)
    (hqueue : u.ch.queue = [e, e2]) (harmed : u.ch.armed = .due false false) (hactive : u.ch.active = none)
    (hbound : u.ch.bound = some q) (hout : e.record.isOutput = true)
    (hstart : e2.record.start = 1) (hout2 : e2.record.isOutput = true)
    (hvalid : validate u.ch (p.wide c) e2.record = none) (hshared : u.pool.hasShared = true)
    (hfree : u.pool.reservedBusy c = false) :
    p.Settles k c u 5 (((p.withView c u).stepStarts c q k.tb e false false [e2]).stepHandsOver c q k.tb e .preempted e2) := by
  have hvalid' : validate (u.start e false false).ch (p.wide c) e2.record = none := (validate_congr rfl rfl ..).trans hvalid
  have htail : (u.start e false false).ch.queue = [e2] := by simp [UnitView.start, hqueue]
  have hgood : (u.start e false false).behind [e2] .good
      = { u.start e false false with ch := { (u.start e false false).ch with armed := .good } } := by
    have hkept : (u.start e false false).ch.state = .active := hstate
    rw [UnitView.behind, ← htail, ← hkept]
  rw [stepStarts_withView hqueue, armBehind_good hvalid', hgood]
  refine .turn (UnitView.turn_start steps hqueue harmed hactive hfree) rfl (settles_arm_good (n := 3) steps htail rfl hvalid' ?_)
  exact settles_preempted (u := { u.start e false false with ch := { (u.start e false false).ch with armed := .good } })
    steps rfl htail rfl hbound rfl rfl hout hstart hout2 hshared hfree

/-- An IMMEDIATE step preempts a step at the event that starts it (R13). -/
theorem atUnit_followed_preempted (ends : u.Ends e q) (hstatus : status ≠ .halted)
    (hf : f (p.context k c) (p.view c) = u.endAndHandOver (p.context k c) status) (hqueue : u.ch.queue = [e2, e3])
    (harmed : u.ch.armed = .good) (hevaluation : u.ch.evaluation = .none) (hstart2 : e2.record.start = 0)
    (hout2 : e2.record.isOutput = true) (hstart3 : e3.record.start = 1) (hout3 : e3.record.isOutput = true)
    (hvalid : validate u.ch (p.wide c) e3.record = none) (hshared : u.pool.hasShared = true)
    (hfree : u.pool.reservedBusy c = false)
    (hshared2 : ((p.withView c u).stepHandsOver c q k.tb e status e2 (behind := [e3])).pool.hasShared = true) :
    p.atUnit k c f
      = ((p.withView c u).stepHandsOver c q k.tb e status e2 (behind := [e3])).stepHandsOver c q k.tb e2 .preempted e3 := by
  have hbusy := ended_reservedBusy (u := u) (c := c) (q := q) (tb := k.tb) (e := e) (body := endedBody u.ch e status)
  rw [hfree, hshared] at hbusy
  have hdue := UnitView.beginStart_due (x := p.context k c) (u := u.ended c q k.tb e (endedBody u.ch e status)) (e := e2)
    (StepRecord.isDueNow_of_chain (.inl hstart2))
  rw [StepRecord.isLate_of_chain (.inl hstart2)] at hdue
  have hsame := stepStarts_congr (p := p) (c := c) (q := q) (e := e2) (rest := [e3]) (tb := k.tb) (late := false) (held := false)
    (u := u.ended c q k.tb e (endedBody u.ch e status))
    (ch := { (u.ended c q k.tb e (endedBody u.ch e status)).ch with armed := .due false false })
    (lines := (u.ended c q k.tb e (endedBody u.ch e status)).lines) rfl rfl
  have hvalid' : validate ((u.ended c q k.tb e (endedBody u.ch e status)).start e2 false false).ch (p.wide c) e3.record
      = none := (validate_congr rfl rfl ..).trans hvalid
  have hroom : (u.ended c q k.tb e (endedBody u.ch e status)).pool.hasShared = true := by
    rw [stepHandsOver_withView hshared, stepStarts_withView (u := u.ended c q k.tb e (endedBody u.ch e status)) hqueue,
      armBehind_good hvalid'] at hshared2
    exact hshared2
  rw [stepHandsOver_withView hshared, ← hsame]
  have hsettles := settles_start_preempted (p := p) (k := k) (c := c) (q := q) (e := e2) (e2 := e3)
    (u := { u.ended c q k.tb e (endedBody u.ch e status) with ch :=
      { (u.ended c q k.tb e (endedBody u.ch e status)).ch with armed := .due false false } })
    ends.steps ends.state hqueue rfl rfl ends.bound hout2 hstart3 hout3 ((validate_congr (ch := u.ch) rfl rfl ..).trans hvalid)
    hroom hbusy
  exact atUnit_ends ends hstatus hf (settles_begin (u := u.ended c q k.tb e (endedBody u.ch e status)) ends.steps hqueue harmed
    rfl hevaluation hdue rfl hsettles) (by omega)

end Part

/-- The view of a channel whose step read has failed (R24). -/
def Part.faulted (p : Part) (c : ChanId) : UnitView :=
  { p.view c with ch := { p.chans[c] with fetchFault := true, fetchInFlight := false, stale := false } }

/-- The view of a channel that a failed step read stops (R25). -/
def Part.faultStopped (p : Part) (c : ChanId) : UnitView :=
  { p.faulted c with ch := { (p.faulted c).ch with state := .stopped } }

theorem Part.fetched_true (p : Part) (c : ChanId) : (p.view c).fetched true = p.faulted c := by
  simp only [UnitView.fetched, Bool.or_true]
  rfl

/-- Settles O36: the FAULT at once, the fault noted, and the FAULT behind the last step's STEP_DONE. -/
theorem readErrorStopsAnIdleChannel : Obligations.ReadErrorStopsAnIdleChannel := by
  refine ⟨?_, ?_, ?_⟩
  · intro s c q answers p ch body stopped hstate hactive hqueue hhalt hstale hbound
    have steps : p.chans[c].noSteps = false := Channel.steps_of_open (.inl hstate) hhalt
    have hread : p.stepRead s.clock c none = p.withView c ((p.faultStopped c).reported c q s.clock.tb body) := by
      rw [← Part.reportComposed_withView]
      refine Part.stepRead_fails hstale steps ?_ (n := 1) (by omega)
      rw [Part.fetched_true]
      exact Part.settles_fault (u := p.faulted c) steps hqueue hactive rfl hbound
    refine ⟨fun hroom => exec_stepReadError answers (hread.trans ?_) rfl,
      fun hshared hbusy => exec_stepReadError answers (hread.trans ?_) rfl⟩
    · rw [UnitView.reported_room (u := p.faultStopped c) hroom]
      rfl
    · rw [UnitView.reported_full (u := p.faultStopped c) hshared hbusy]
      rfl
  · intro s c answers p ch hhalt hstale h
    have hopen : ch.state = .active ∨ ch.state = .waiting := h.imp And.left And.left
    have steps : p.chans[c].noSteps = false :=
      Channel.steps_of_open (hopen.elim (fun h => .inr (.inr (.inl h))) fun h => .inr (.inl h)) hhalt
    refine exec_stepReadError answers (Part.stepRead_fails hstale steps ?_ (n := 0) (by omega)) rfl
    rw [Part.fetched_true]
    exact Part.settles_goes_on (u := p.faulted c) steps (by simp [Part.faulted, Part.view]) h
  · intro s c e q p ch r n p1 hstate hactive hrunning hcounted hbound hout hphase hcounter hhalt hcount hn hqueue hfault
    have ends : (p.cycled c e).Ends e q := Part.cycled_ends hhalt hstate hactive hbound
    have hends : UnitView.cycleEnd (p.context s.clock c) (p.view c)
        = (p.cycled c e).endAndHandOver (p.context s.clock c) .done :=
      Part.cycleEnd_ends hhalt hactive (.inl ⟨hcount, hn, rfl⟩)
    have hp1 : p1 = (p.withView c (p.cycled c e)).stepEnded c q s.clock.tb e .done := rfl
    clear_value p1
    subst hp1
    exact exec_cycleEnd hactive hrunning hcounted hout hphase hcounter
      (Part.atUnit_ends_fault ends (by decide) hends hqueue hfault)

/-- Settles O47: the step goes on, or it ends, and what stands behind it proceeds. -/
theorem cycleEndDecidesTheStep : Obligations.CycleEndDecidesTheStep := by
  intro s c e q p ch r n u p1 hstate hactive hrunning hcounted hbound hout hphase hcounter
  have ends : ch.halt = none → (p.cycled c e).Ends e q := fun hhalt => Part.cycled_ends hhalt hstate hactive hbound
  refine ⟨fun hhalt h => ?_, fun hhalt hcount hn hqueue hfault => ?_, ?_, fun h law hhalt => ?_⟩
  · have hgoes := Part.cycleEnd_goes_on (k := s.clock) hhalt hactive h
    have hsettle : (p.cycled c e).nextFromZero.settle = (p.cycled c e).nextFromZero :=
      (Part.cycled_ends (q := q) hhalt hstate hactive hbound).nextFromZero.settle
    have hunit := (Part.atUnit_untold (f := UnitView.cycleEnd) hgoes rfl).trans (congrArg (p.withView c) hsettle)
    exact exec_cycleEnd hactive hrunning hcounted hout hphase hcounter hunit
  · have hends : UnitView.cycleEnd (p.context s.clock c) (p.view c)
        = (p.cycled c e).endAndHandOver (p.context s.clock c) .done :=
      Part.cycleEnd_ends hhalt hactive (.inl ⟨hcount, hn, rfl⟩)
    exact exec_cycleEnd hactive hrunning hcounted hout hphase hcounter
      (Part.atUnit_ends_last (ends hhalt) (by decide) hends hqueue hfault)
  · intro e2 behind hhalt hcount hqueue hroom harmed hevaluation status hfree
    have hstatus : status ≠ .halted := by
      simp only [status]
      split <;> decide
    have hends : UnitView.cycleEnd (p.context s.clock c) (p.view c)
        = (p.cycled c e).endAndHandOver (p.context s.clock c) status := by
      refine Part.cycleEnd_ends hhalt hactive ?_
      by_cases hzero : e.record.count = 0
      · exact .inr ⟨hzero, by rw [show p.chans[c].armed = .good from harmed]; rfl, if_pos hzero⟩
      · exact .inl ⟨hzero, hcount.resolve_left hzero, if_neg hzero⟩
    have hp1 : p1 = p.withView c (p.cycled c e) := rfl
    clear_value p1 status
    subst hp1
    refine ⟨fun hruns hskip => ?_, fun e3 rest hskipped hbehind hshared hvalid hout3 hstart3 hruns3 => ?_,
      fun e3 hbehind hstart2 hout2 hstart3 hout3 hvalid hshared hshared2 => ?_⟩
    · exact exec_cycleEnd hactive hrunning hcounted hout hphase hcounter
        (Part.atUnit_followed (ends hhalt) hstatus hends hqueue hroom harmed hevaluation hruns hskip hfree)
    · subst hbehind
      exact exec_cycleEnd hactive hrunning hcounted hout hphase hcounter
        (Part.atUnit_followed_removed (ends hhalt) hstatus hends hqueue hroom harmed hevaluation hskipped hshared (hfree hshared)
          hvalid hout3 hstart3 hruns3)
    · subst hbehind
      exact exec_cycleEnd hactive hrunning hcounted hout hphase hcounter
        (Part.atUnit_followed_preempted (ends hhalt) hstatus hends hqueue harmed hevaluation hstart2 hout2 hstart3 hout3 hvalid
          hshared (hfree hshared) hshared2)
  · have hhalts : UnitView.cycleEnd (p.context s.clock c) (p.view c)
        = (p.cycled c e).endHalted (p.context s.clock c) false :=
      (Part.cycleEnd_eq hactive).trans (UnitView.boundary_halts (h := h) hhalt)
    have halting : (p.cycled c e).ch.Halting e h q := by
      obtain ⟨hhalt, hactive, hbound, hqueue, harmed, hevaluation⟩ := Channel.halting_of_law law hhalt hactive hbound
      exact ⟨hhalt, hactive, hbound, hqueue, harmed, hevaluation⟩
    exact exec_cycleEnd hactive hrunning hcounted hout hphase hcounter (Part.atUnit_halted hhalts halting rfl)

end Sys2Proof.Machine
end

section
/-! PROOF. Capture-class entries as a unit offers them, and CAPTURE_EDGE (R15, R18, R21, R43, R45, R47, R49, R52 to R54). -/

namespace Sys2Proof.Machine

/-! ### The offer of a capture-class entry (R54, R106) -/

/-- The view once a capture-class entry was offered. -/
def UnitView.captured (u : UnitView) (c : ChanId) (q : RingId) (tb : Ticks) (body : EntryBody) : UnitView :=
  { u with
    ch := u.ch.afterCapture u.pool.hasShared
    pool := if u.pool.hasShared then
        u.pool.append q
          { slot := .shared
            entry := { draft := { channel := c, time := tb, body := body }, seq := u.ch.seq, missed := u.ch.missed } }
      else u.pool }

theorem UnitView.offerCapture_eq {x : UnitContext} {u : UnitView} {q : RingId} (hbound : u.ch.bound = some q)
    (body : EntryBody) : u.offerCapture x body = u.captured x.id q x.clock.tb body := by
  unfold offerCapture captured Channel.afterCapture
  by_cases h : u.pool.hasShared = true
  · simp only [h, if_true]
    exact admitted_bound hbound ..
  · simp only [h]
    rfl

theorem Channel.afterCapture_frame (ch : Channel) (admitted : Bool) :
    ∃ seq missed, ch.afterCapture admitted = { ch with seq := seq, missed := missed } := by
  cases admitted with
  | true => exact ⟨ch.seq + 1, 0, rfl⟩
  | false => exact ⟨ch.seq, addUpTo 255 ch.missed, rfl⟩

/-! ### A unit whose step runs on -/

theorem UnitView.settle_running {u : UnitView} {e : Step} (hstate : u.ch.state = .active) (hactive : u.ch.active = some e)
    (hending : u.ending = none) : u.settle = u := by
  have hderived : u.ch.derivedState = u.ch.state := by simp [Channel.derivedState, hstate, hactive]
  rw [settle_of_not_park (by simp [hending]), hderived]

namespace Part
variable {p : Part} {k : Clock} {c : ChanId} {e : Step} {q : RingId} {u : UnitView} {status : DoneStatus}

theorem atUnit_runs_on {f : UnitContext → UnitView → UnitView} (hf : f (p.context k c) (p.view c) = u)
    (hstate : u.ch.state = .active) (hactive : u.ch.active = some e) (hending : u.ending = none) (told : u.told = none) :
    p.atUnit k c f = p.withView c u := by
  rw [atUnit_untold hf told, UnitView.settle_running hstate hactive hending]

/-- The part that the end of a step leaves that drives no line (R34). -/
theorem stepEnded_undriven {tb : Ticks} (hout : e.record.isOutput = false) :
    (p.withView c u).stepEnded c q tb e status
      = { p.withView c u with
          chans := p.chans.set c (endedChannel u.ch).afterAdmission
          pool := (p.withView c u).poolWith c q u.pool.slotForReport tb (endedBody u.ch e status)
          marks := if u.emitted || e.record.markEnd then p.marks.set c true else p.marks } := by
  rw [stepEnded, withView_getElem]
  simp only [withView, Vector.set_set, linesAfterEnd, hout, Bool.false_eq_true, false_and, if_false, marks_or]

end Part

theorem State.onPart_unitEvent_quiet {s : State} {c : ChanId} {due : Bool} {f : UnitContext → UnitView → UnitView} {q : Part}
    (hdue : due = true) (hq : s.part.atUnit s.clock c f = q) (hmarks : q.marks = s.part.marks) :
    (Host.Outcome.next (s.onPart fun k p => p.unitEvent k c due f) : Host.Outcome State Fault Refusal)
      = .next (s.granted q) := by
  rw [onPart_unitEvent hdue hq, ← hmarks, Part.closeStep_quiet rfl]
  rfl

/-! ### A boundary that an event of a unit brings -/

/-- The two channels have the same window, claims of a ring and halt request. -/
structure Channel.SameWindow (a b : Channel) : Prop where
  state : a.state = b.state
  active : a.active = b.active
  queue : a.queue = b.queue
  armed : a.armed = b.armed
  evaluation : a.evaluation = b.evaluation
  halt : a.halt = b.halt
  bound : a.bound = b.bound
  fetchFault : a.fetchFault = b.fetchFault

theorem Channel.SameWindow.window_eq {a b : Channel} (h : a.SameWindow b) : a.window = b.window := by
  rw [Channel.window, Channel.window, h.active, h.queue]

theorem Channel.sameWindow_afterCapture (ch : Channel) (admitted : Bool) : (ch.afterCapture admitted).SameWindow ch := by
  obtain ⟨_, _, h⟩ := ch.afterCapture_frame admitted
  rw [h]
  exact ⟨rfl, rfl, rfl, rfl, rfl, rfl, rfl, rfl⟩

/-- The event `f` of the unit of channel `c` brings the active step `e` to a boundary, with the view `u`. -/
structure Part.AtBoundary (p : Part) (k : Clock) (c : ChanId) (e : Step) (q : RingId)
    (f : UnitContext → UnitView → UnitView) (u : UnitView) (natural : Option DoneStatus) (goOn : UnitView → UnitView) :
    Prop where
  event : f (p.context k c) (p.view c) = u.boundary (p.context k c) e.record natural goOn
  same : u.ch.SameWindow p.chans[c]
  found : u.found = none
  ending : u.ending = none
  told : u.told = none
  state : p.chans[c].state = .active
  active : p.chans[c].active = some e
  bound : p.chans[c].bound = some q

namespace Part.AtBoundary
variable {p : Part} {k : Clock} {c : ChanId} {e e2 : Step} {q : RingId} {f : UnitContext → UnitView → UnitView} {u : UnitView}
  {natural : Option DoneStatus} {goOn : UnitView → UnitView} {status : DoneStatus} {rest : List Step}

variable (b : p.AtBoundary k c e q f u natural goOn)
include b

theorem ends (hhalt : p.chans[c].halt = none) : u.Ends e q :=
  ⟨b.same.halt.trans hhalt, b.same.state.trans b.state, b.same.active.trans b.active, b.same.bound.trans b.bound, b.found,
    b.ending, b.told⟩

theorem goes_on (hhalt : p.chans[c].halt = none) (hnatural : natural = none)
    (hstays : e.record.count = 0 → p.chans[c].armed.isGood = false) (hch : (goOn u).ch.SameWindow u.ch)
    (hending : (goOn u).ending = u.ending) (htold : (goOn u).told = u.told) : p.atUnit k c f = p.withView c (goOn u) :=
  atUnit_runs_on (b.event.trans (UnitView.boundary_goes_on (b.same.halt.trans hhalt) hnatural
    fun hcount => by rw [b.same.armed, hstays hcount])) (hch.state.trans (b.same.state.trans b.state))
    (hch.active.trans (b.same.active.trans b.active)) (hending.trans b.ending) (htold.trans b.told)

theorem end_event (hhalt : p.chans[c].halt = none) (h : natural = some status
      ∨ natural = none ∧ e.record.count = 0 ∧ p.chans[c].armed.isGood = true ∧ status = .superseded) :
    f (p.context k c) (p.view c) = u.endAndHandOver (p.context k c) status :=
  b.event.trans (UnitView.boundary_ends (b.same.halt.trans hhalt) (by rw [b.same.armed]; exact h))

theorem ends_last (hhalt : p.chans[c].halt = none) (hnatural : natural = some status) (hstatus : status ≠ .halted)
    (hqueue : p.chans[c].queue = []) (hfault : p.chans[c].fetchFault = false) :
    p.atUnit k c f = (p.withView c u).stepEnded c q k.tb e status :=
  atUnit_ends_last (b.ends hhalt) hstatus (b.end_event hhalt (.inl hnatural)) (b.same.queue.trans hqueue)
    (b.same.fetchFault.trans hfault)

theorem followed (hhalt : p.chans[c].halt = none) (h : natural = some status
      ∨ natural = none ∧ e.record.count = 0 ∧ status = .superseded) (hstatus : status ≠ .halted)
    (hqueue : p.chans[c].queue = e2 :: rest) (hroom : p.chans[c].window.length ≤ 4) (harmed : p.chans[c].armed = .good)
    (hevaluation : p.chans[c].evaluation = .none) (hruns : e2.runsOn rest)
    (hskip : e2.record.isSkipped k.tb → rest = [] ∧ p.chans[c].fetchFault = false)
    (hfree : u.pool.hasShared = true → u.pool.reservedBusy c = false) :
    p.atUnit k c f = (p.withView c u).stepFollowed c q k.tb e status e2 rest := by
  refine atUnit_followed (b.ends hhalt) hstatus (b.end_event hhalt ?_) (b.same.queue.trans hqueue)
    (by rw [b.same.window_eq]; exact hroom) (b.same.armed.trans harmed) (b.same.evaluation.trans hevaluation) hruns
    (by rw [b.same.fetchFault]; exact hskip) hfree
  exact h.imp_right fun ⟨hnone, hcount, hsuperseded⟩ => ⟨hnone, hcount, by rw [harmed]; rfl, hsuperseded⟩

theorem halted {h : HaltRequest} (law : p.chans[c].Law) (hhalt : p.chans[c].halt = some h) :
    p.atUnit k c f = (p.withView c u).stepHalted c q k.tb e h false := by
  obtain ⟨hhalt, hactive, hbound, hqueue, harmed, hevaluation⟩ := Channel.halting_of_law law hhalt b.active b.bound
  exact atUnit_halted (b.event.trans (UnitView.boundary_halts (b.same.halt.trans hhalt)))
    ⟨b.same.halt.trans hhalt, b.same.active.trans hactive, b.same.bound.trans hbound, b.same.queue.trans hqueue,
      b.same.armed.trans harmed, b.same.evaluation.trans hevaluation⟩ b.found

end Part.AtBoundary

end Sys2Proof.Machine
end

section
/-! PROOF. CAPTURE_EDGE and OVERRANGE of an interval step (R15, R18, R21, R43, R45 to R47, R49, R52 to R55). -/

namespace Sys2Proof.Machine

theorem Channel.SameWindow.trans {a b c : Channel} (h : a.SameWindow b) (h' : b.SameWindow c) : a.SameWindow c :=
  ⟨h.state.trans h'.state, h.active.trans h'.active, h.queue.trans h'.queue, h.armed.trans h'.armed,
    h.evaluation.trans h'.evaluation, h.halt.trans h'.halt, h.bound.trans h'.bound, h.fetchFault.trans h'.fetchFault⟩

theorem UnitView.sameWindow_captured (u : UnitView) (c : ChanId) (q : RingId) (tb : Ticks) (body : EntryBody) :
    (u.captured c q tb body).ch.SameWindow u.ch := Channel.sameWindow_afterCapture ..

namespace Part
variable {p : Part} {k : Clock} {c : ChanId} {e : Step} {q : RingId}

/-! ### CAPTURE_EDGE -/

/-- The view of an armed interval step that takes an OK capture, but for its offer (R45). -/
def captureCounted (p : Part) (c : ChanId) (e : Step) : UnitView :=
  { p.view c with ch := { p.chans[c] with
      counter := 0, phase := 0, edgeTaken := true, strikes := 0, okCount := nextCount p.chans[c].okCount
      acc := if e.record.summary then p.chans[c].acc.enter p.chans[c].counter else p.chans[c].acc } }

/-- The view of an armed interval step once it has taken an OK capture (R45, R49, R52). -/
def captureTaken (p : Part) (k : Clock) (c : ChanId) (e : Step) (q : RingId) : UnitView :=
  UnitView.cycleMark e.record
    (if e.record.quiet then p.captureCounted c e
      else (p.captureCounted c e).captured c q k.tb (.capture e.record.tag false false p.chans[c].counter))

theorem captureEdge_eq (hactive : p.chans[c].active = some e) (hbound : p.chans[c].bound = some q)
    (harmed : p.chans[c].intervalArmed = true) : UnitView.captureEdge (p.context k c) (p.view c)
    = (p.captureTaken k c e q).boundary (p.context k c) e.record
        (if e.record.countReached (nextCount p.chans[c].okCount) then some .done else none) id := by
  have hview : (p.view c).ch.active = some e := hactive
  have hview2 : (p.view c).ch.intervalArmed = true := harmed
  have hoffer : (p.captureCounted c e).offerCapture (p.context k c) (.capture e.record.tag false false p.chans[c].counter)
      = (p.captureCounted c e).captured c q k.tb (.capture e.record.tag false false p.chans[c].counter) :=
    UnitView.offerCapture_eq hbound _
  unfold UnitView.captureEdge
  rw [hview]
  simp only [hview2, if_true, UnitView.offerOk, captureTaken, ← hoffer]
  rfl

/-- The view of an unarmed interval step that arms at the edge (R45). -/
def edgeArmed (p : Part) (c : ChanId) : UnitView :=
  { p.view c with ch := { p.chans[c] with counter := 0, phase := 0, intervalArmed := true, edgeTaken := true } }

theorem captureEdge_unarmed (hactive : p.chans[c].active = some e) (harmed : p.chans[c].intervalArmed = false) :
    UnitView.captureEdge (p.context k c) (p.view c) = p.edgeArmed c := by
  have hview : (p.view c).ch.active = some e := hactive
  have hview2 : (p.view c).ch.intervalArmed = false := harmed
  unfold UnitView.captureEdge
  rw [hview]
  simp only [hview2, Bool.false_eq_true, if_false]
  rfl

theorem captureTaken_atBoundary (hstate : p.chans[c].state = .active) (hactive : p.chans[c].active = some e)
    (hbound : p.chans[c].bound = some q) (harmed : p.chans[c].intervalArmed = true) :
    p.AtBoundary k c e q UnitView.captureEdge (p.captureTaken k c e q)
      (if e.record.countReached (nextCount p.chans[c].okCount) then some .done else none) id := by
  have hcounted : (p.captureCounted c e).ch.SameWindow p.chans[c] := ⟨rfl, rfl, rfl, rfl, rfl, rfl, rfl, rfl⟩
  refine ⟨captureEdge_eq hactive hbound harmed, ?_, ?_, ?_, ?_, hstate, hactive, hbound⟩
  · unfold captureTaken UnitView.cycleMark
    dsimp only
    split
    · exact hcounted
    · exact (UnitView.sameWindow_captured ..).trans hcounted
  all_goals
    unfold captureTaken UnitView.cycleMark
    dsimp only
    split <;> rfl

end Part

/-- The end at a count that the step has reached, or has not (R28, R47). -/
theorem StepRecord.natural_eq {r : StepRecord} {n : Nat} :
    ((if r.countReached n then some DoneStatus.done else none) = some .done ↔ r.count ≠ 0 ∧ n = r.count.toNat)
      ∧ ((if r.countReached n then some DoneStatus.done else none) = none ↔ ¬(r.count ≠ 0 ∧ n = r.count.toNat)) := by
  rw [← countReached_iff]
  cases r.countReached n <;> simp

theorem Part.captureTaken_ch (p : Part) (k : Clock) (c : ChanId) (e : Step) (q : RingId) : (p.captureTaken k c e q).ch
    = if e.record.quiet then (p.captureCounted c e).ch else (p.captureCounted c e).ch.afterCapture p.pool.hasShared := by
  unfold captureTaken UnitView.cycleMark
  cases e.record.quiet <;> rfl

theorem Part.captureTaken_pool (p : Part) (k : Clock) (c : ChanId) (e : Step) (q : RingId) : (p.captureTaken k c e q).pool
    = if e.record.quiet then p.pool
      else p.poolAfterCapture c q k.tb (.capture e.record.tag false false p.chans[c].counter) := by
  unfold captureTaken UnitView.cycleMark
  cases e.record.quiet <;> rfl

theorem Part.captureTaken_emitted (p : Part) (k : Clock) (c : ChanId) (e : Step) (q : RingId) :
    (p.captureTaken k c e q).emitted = e.record.markCycle := by
  unfold captureTaken UnitView.cycleMark
  cases e.record.quiet <;> rfl

theorem Part.captureTaken_part (p : Part) (k : Clock) (c : ChanId) (e : Step) (q : RingId) :
    p.withView c (p.captureTaken k c e q) = { p with
      chans := p.chans.set c (p.captureTaken k c e q).ch
      pool := (p.captureTaken k c e q).pool
      marks := if e.record.markCycle then p.marks.set c true else p.marks } := by
  unfold captureTaken UnitView.cycleMark
  cases e.record.quiet <;> rfl

/-- Where no natural end has come, a continuous step with a GOOD step behind it is superseded. -/
theorem StepRecord.natural_of_followed {r : StepRecord} {n : Nat} (h : r.count = 0 ∨ n = r.count.toNat) :
    (if r.countReached n then some DoneStatus.done else none) = some (if r.count = 0 then .superseded else .done)
      ∨ (if r.countReached n then some DoneStatus.done else none) = none ∧ r.count = 0
        ∧ (if r.count = 0 then DoneStatus.superseded else .done) = .superseded := by
  by_cases hcount : r.count = 0
  · exact .inr ⟨natural_eq.2.2 fun h => h.1 hcount, hcount, if_pos hcount⟩
  · rw [if_neg hcount]
    exact .inl (natural_eq.1.2 ⟨hcount, h.resolve_left hcount⟩)

/-- Settles O48: the step arms, or it takes a capture and goes on or ends. -/
theorem captureEdgeTakesACapture : Obligations.CaptureEdgeTakesACapture := by
  refine ⟨?_, fun a v => rfl⟩
  intro s c e q p ch r v n u0 u p1 hstate hactive hrunning htaken hbound hinterval hedge
  have hdue : ch.captureEdgeDue s.clock = true :=
    (Channel.captureEdgeDue_iff hactive s.clock).2 ⟨htaken, hrunning, hinterval, hedge⟩
  have boundary : ch.intervalArmed = true → p.AtBoundary s.clock c e q UnitView.captureEdge (p.captureTaken s.clock c e q)
      (if e.record.countReached (nextCount p.chans[c].okCount) then some .done else none) id :=
    fun harmed => Part.captureTaken_atBoundary hstate hactive hbound harmed
  have hch : (p.captureTaken s.clock c e q).ch = u := p.captureTaken_ch s.clock c e q
  have hpool : (p.captureTaken s.clock c e q).pool = p1.pool := p.captureTaken_pool s.clock c e q
  have hpart : { p1 with marks := if r.markCycle then p.marks.set c true else p.marks }
      = p.withView c (p.captureTaken s.clock c e q) := by
    rw [p.captureTaken_part s.clock c e q, hch, hpool]
  refine ⟨fun harmed => ?_, fun harmed hhalt h => ?_, fun harmed hhalt hcount hn hqueue hfault => ?_,
    fun harmed e2 behind hhalt hcount hqueue hroom hgood hevaluation hruns hskip hfree => ?_, fun harmed h law hhalt => ?_⟩
  · exact State.onPart_unitEvent_quiet hdue (q := p.withView c (p.edgeArmed c))
      (Part.atUnit_runs_on (Part.captureEdge_unarmed hactive harmed) hstate hactive rfl rfl) rfl
  · refine State.onPart_unitEvent hdue (((boundary harmed).goes_on hhalt ?_ ?_ ⟨rfl, rfl, rfl, rfl, rfl, rfl, rfl, rfl⟩ rfl
      rfl).trans hpart.symm)
    · refine StepRecord.natural_eq.2.2 fun hreached => ?_
      rcases h with ⟨hzero, -⟩ | ⟨-, hne⟩
      · exact hreached.1 hzero
      · exact hne hreached.2
    · rintro hzero
      rcases h with ⟨-, hgood⟩ | ⟨hne, -⟩
      · exact hgood
      · exact absurd hzero hne
  · refine State.onPart_unitEvent hdue (((boundary harmed).ends_last hhalt (StepRecord.natural_eq.1.2 ⟨hcount, hn⟩) (by decide)
      hqueue hfault).trans ?_)
    rw [Part.stepEnded_undriven (not_output_of_isInterval hinterval).1, hch, hpool, ← hpart]
    rw [p.captureTaken_emitted s.clock c e q]
    rfl
  · rw [hpart]
    exact State.onPart_unitEvent hdue ((boundary harmed).followed hhalt (StepRecord.natural_of_followed hcount)
      (by split <;> decide) hqueue hroom hgood hevaluation hruns hskip (by rw [hpool]; exact hfree))
  · rw [hpart]
    exact State.onPart_unitEvent hdue ((boundary harmed).halted law hhalt)

end Sys2Proof.Machine
end

section
/-! PROOF. OVERRANGE of an interval step (R15, R18, R21, R46, R47, R49, R55). -/

namespace Sys2Proof.Machine

/-- A count that stops at 15 (R46). -/
abbrev nextStrike (n : Nat) : Nat := if n < 15 then n + 1 else n

/-- The end at a strike limit that the step has reached, or has not (R46, R61). -/
abbrev StepRecord.strikeEnd (r : StepRecord) (n : Nat) : Option DoneStatus :=
  if r.strikes != 0 && n == r.strikes.toNat then some .noSignal else none

theorem StepRecord.strikeEnd_some {r : StepRecord} {n : Nat} (h : r.strikes ≠ 0 ∧ n = r.strikes.toNat) :
    r.strikeEnd n = some .noSignal := if_pos (by
    simp only [bne_iff_ne, Bool.and_eq_true, beq_iff_eq]
    exact h)

theorem StepRecord.strikeEnd_none {r : StepRecord} {n : Nat} (h : ¬(r.strikes ≠ 0 ∧ n = r.strikes.toNat)) :
    r.strikeEnd n = none := if_neg (by simpa using h)

theorem Channel.restarted_afterCapture (ch : Channel) (hphase : ch.phase = 0) (admitted : Bool) :
    ({ ch.afterCapture admitted with counter := 0, counted := true } : Channel)
      = { ch.afterCapture admitted with counter := 0, phase := 0, counted := true } := by
  have hkept : (ch.afterCapture admitted).phase = 0 := by
    obtain ⟨_, _, h⟩ := ch.afterCapture_frame admitted
    rw [h]
    exact hphase
  rw [← hkept]

namespace Part
variable {p : Part} {k : Clock} {c : ChanId} {e : Step} {q : RingId}

/-- The view of an interval step that disarms and counts a strike, but for the offer of its capture (R46). -/
def strikeCounted (p : Part) (c : ChanId) (e : Step) : UnitView :=
  { p.view c with ch := { p.chans[c] with
      counter := e.record.top.toNat, phase := 0, intervalArmed := false, strikes := nextStrike p.chans[c].strikes } }

/-- The view of an interval step once its overrange was taken (R46, R49). -/
def overrangeTaken (p : Part) (k : Clock) (c : ChanId) (e : Step) (q : RingId) : UnitView :=
  UnitView.cycleMark e.record ((p.strikeCounted c e).captured c q k.tb
    (.capture e.record.tag true (!p.chans[c].intervalArmed) e.record.top.toNat))

theorem overrange_eq (hactive : p.chans[c].active = some e) (hbound : p.chans[c].bound = some q) :
    UnitView.overrange (p.context k c) (p.view c)
      = (p.overrangeTaken k c e q).boundary (p.context k c) e.record (e.record.strikeEnd (nextStrike p.chans[c].strikes))
          UnitView.nextFromZero := by
  have hview : (p.view c).ch.active = some e := hactive
  have hoffer : (p.view c).offerCapture (p.context k c)
        (.capture e.record.tag true (!p.chans[c].intervalArmed) e.record.top.toNat)
      = (p.view c).captured c q k.tb (.capture e.record.tag true (!p.chans[c].intervalArmed) e.record.top.toNat) :=
    UnitView.offerCapture_eq hbound _
  have hcommutes : (p.strikeCounted c e).captured c q k.tb
        (.capture e.record.tag true (!p.chans[c].intervalArmed) e.record.top.toNat)
      = { (p.view c).captured c q k.tb (.capture e.record.tag true (!p.chans[c].intervalArmed) e.record.top.toNat) with ch :=
          { ((p.view c).captured c q k.tb
              (.capture e.record.tag true (!p.chans[c].intervalArmed) e.record.top.toNat)).ch with
            counter := e.record.top.toNat, phase := 0, intervalArmed := false
            strikes := nextStrike p.chans[c].strikes } } := by
    have hpool : (p.view c).pool = p.pool := rfl
    have hpool2 : (p.strikeCounted c e).pool = p.pool := rfl
    simp only [UnitView.captured, hpool, hpool2]
    cases p.pool.hasShared <;> rfl
  unfold UnitView.overrange
  rw [hview]
  simp only [overrangeTaken, hcommutes, ← hoffer]
  rfl

theorem overrangeTaken_sameWindow : (p.overrangeTaken k c e q).ch.SameWindow p.chans[c] :=
  (UnitView.sameWindow_captured (p.strikeCounted c e) c q k.tb
    (.capture e.record.tag true (!p.chans[c].intervalArmed) e.record.top.toNat)).trans ⟨rfl, rfl, rfl, rfl, rfl, rfl, rfl, rfl⟩

theorem overrangeTaken_atBoundary (hstate : p.chans[c].state = .active) (hactive : p.chans[c].active = some e)
    (hbound : p.chans[c].bound = some q) : p.AtBoundary k c e q UnitView.overrange (p.overrangeTaken k c e q)
      (e.record.strikeEnd (nextStrike p.chans[c].strikes)) UnitView.nextFromZero :=
  ⟨overrange_eq hactive hbound, overrangeTaken_sameWindow, rfl, rfl, rfl, hstate, hactive, hbound⟩

end Part

/-- Settles O49: a strike, and the step goes on or ends. -/
theorem overrangeCountsAStrike : Obligations.OverrangeCountsAStrike := by
  intro s c e q p ch r n u p1 hstate hactive hrunning hcounted hbound hinterval hgated hedge hphase hcounter
  have hdue : ch.overrangeDue s.clock = true := by
    refine (Channel.overrangeDue_iff hactive s.clock).2 ⟨?_, hrunning, hinterval, hgated, ⟨hcounted, hphase⟩, hcounter⟩
    rw [Bool.eq_false_iff]
    intro hcapture
    obtain ⟨htaken, -, -, his⟩ := (Channel.captureEdgeDue_iff hactive s.clock).1 hcapture
    rcases hedge with h | h
    · exact absurd (h.symm.trans htaken) (by decide)
    · exact absurd (h.symm.trans his) (by decide)
  have boundary : p.AtBoundary s.clock c e q UnitView.overrange (p.overrangeTaken s.clock c e q)
      (e.record.strikeEnd (nextStrike p.chans[c].strikes)) UnitView.nextFromZero :=
    Part.overrangeTaken_atBoundary hstate hactive hbound
  have hpart : { p1 with marks := if r.markCycle then p.marks.set c true else p.marks }
      = p.withView c (p.overrangeTaken s.clock c e q) := rfl
  refine ⟨fun hhalt hstrikes hstays => ?_, fun hhalt hstrikes hn hqueue hfault => ?_,
    fun e2 behind hhalt hcount hqueue hroom hgood hevaluation hruns hskip hfree => ?_, fun h law hhalt => ?_⟩
  · have hgoes := boundary.goes_on hhalt (StepRecord.strikeEnd_none fun h => hstrikes.elim h.1 (· h.2)) hstays
      ⟨rfl, rfl, rfl, rfl, rfl, rfl, rfl, rfl⟩ rfl rfl
    refine State.onPart_unitEvent hdue (hgoes.trans (congrArg (fun x : Channel => { p1 with
      chans := p.chans.set c x
      marks := if r.markCycle then p.marks.set c true else p.marks }) ?_))
    exact (Channel.restarted_afterCapture (p.strikeCounted c e).ch rfl p.pool.hasShared).symm
  · refine State.onPart_unitEvent hdue ((boundary.ends_last hhalt (StepRecord.strikeEnd_some ⟨hstrikes, hn⟩) (by decide)
      hqueue hfault).trans ?_)
    rw [Part.stepEnded_undriven (not_output_of_isInterval hinterval).1, ← hpart]
    rfl
  · rw [hpart]
    refine State.onPart_unitEvent hdue (boundary.followed hhalt ?_
      (by split <;> decide) hqueue hroom hgood hevaluation hruns hskip hfree)
    by_cases hlimit : r.strikes ≠ 0 ∧ n = r.strikes.toNat
    · rw [if_pos hlimit]
      exact .inl (StepRecord.strikeEnd_some hlimit)
    · rw [if_neg hlimit]
      exact .inr ⟨StepRecord.strikeEnd_none hlimit, hcount.resolve_right hlimit, rfl⟩
  · rw [hpart]
    exact State.onPart_unitEvent hdue (boundary.halted law hhalt)

end Sys2Proof.Machine
end

section
/-! PROOF. WINDOW_EDGE and WINDOW_END of a COUNT step (R15, R18, R21, R47, R49, R60, R61). -/

namespace Sys2Proof.Machine

namespace Part
variable {p : Part} {k : Clock} {c : ChanId} {e : Step} {q : RingId}

/-- The greatest value of a channel's width (R60). -/
abbrev greatest (p : Part) (c : ChanId) : Nat := if p.wide c then 4294967295 else 65535

/-- The view of a COUNT step that counts an edge (R60). -/
def windowEdgeCounted (p : Part) (c : ChanId) : UnitView :=
  { p.view c with ch := { p.chans[c] with
      edgeCount := if p.chans[c].edgeCount < p.greatest c then p.chans[c].edgeCount + 1 else p.chans[c].edgeCount
      edgeTaken := true } }

/-- The view of a COUNT step whose window ends with an OK capture, but for its offer (R60). -/
def windowOk (p : Part) (c : ChanId) (e : Step) : UnitView :=
  { p.view c with ch := { p.chans[c] with
      strikes := 0, okCount := nextCount p.chans[c].okCount
      acc := if e.record.summary then p.chans[c].acc.enter p.chans[c].edgeCount else p.chans[c].acc } }

/-- The view of a COUNT step whose window ends at the greatest value, but for the offer of its capture (R61). -/
def windowStrike (p : Part) (c : ChanId) : UnitView :=
  { p.view c with ch := { p.chans[c] with strikes := nextStrike p.chans[c].strikes } }

/-- The view of a COUNT step once its window has ended (R60, R61). -/
def windowTaken (p : Part) (k : Clock) (c : ChanId) (e : Step) (q : RingId) : UnitView :=
  UnitView.cycleMark e.record
    (if p.chans[c].edgeCount < p.greatest c then
      if e.record.quiet then p.windowOk c e
      else (p.windowOk c e).captured c q k.tb (.capture e.record.tag false false p.chans[c].edgeCount)
    else (p.windowStrike c).captured c q k.tb (.capture e.record.tag true false p.chans[c].edgeCount))

/-- The end that a window brings a COUNT step (R60, R61). -/
def windowNatural (p : Part) (c : ChanId) (e : Step) : Option DoneStatus :=
  if p.chans[c].edgeCount < p.greatest c then
    if e.record.countReached (nextCount p.chans[c].okCount) then some .done else none
  else e.record.strikeEnd (nextStrike p.chans[c].strikes)

theorem windowEnd_eq (hactive : p.chans[c].active = some e) (hbound : p.chans[c].bound = some q) :
    UnitView.windowEnd (p.context k c) (p.view c)
      = (p.windowTaken k c e q).boundary (p.context k c) e.record (p.windowNatural c e) UnitView.nextWindow := by
  have hview : (p.view c).ch.active = some e := hactive
  have hok : (p.windowOk c e).offerCapture (p.context k c) (.capture e.record.tag false false p.chans[c].edgeCount)
      = (p.windowOk c e).captured c q k.tb (.capture e.record.tag false false p.chans[c].edgeCount) :=
    UnitView.offerCapture_eq hbound _
  have hstrike : (p.view c).offerCapture (p.context k c) (.capture e.record.tag true false p.chans[c].edgeCount)
      = (p.view c).captured c q k.tb (.capture e.record.tag true false p.chans[c].edgeCount) :=
    UnitView.offerCapture_eq hbound _
  have hcommutes : (p.windowStrike c).captured c q k.tb (.capture e.record.tag true false p.chans[c].edgeCount)
      = { (p.view c).captured c q k.tb (.capture e.record.tag true false p.chans[c].edgeCount) with ch :=
          { ((p.view c).captured c q k.tb (.capture e.record.tag true false p.chans[c].edgeCount)).ch with
            strikes := nextStrike p.chans[c].strikes } } := by
    have hpool : (p.view c).pool = p.pool := rfl
    have hpool2 : (p.windowStrike c).pool = p.pool := rfl
    simp only [UnitView.captured, hpool, hpool2]
    cases p.pool.hasShared <;> rfl
  unfold UnitView.windowEnd
  rw [hview]
  by_cases hlt : p.chans[c].edgeCount < p.greatest c
  · have hlt' : (p.view c).ch.edgeCount < greatestValue (p.context k c).wide := hlt
    simp only [hlt', if_true, windowTaken, windowNatural, if_pos hlt, UnitView.offerOk, ← hok]
    rfl
  · have hlt' : ¬(p.view c).ch.edgeCount < greatestValue (p.context k c).wide := hlt
    simp only [hlt', if_false, windowTaken, windowNatural, if_neg hlt, hcommutes, ← hstrike]
    rfl

theorem windowTaken_sameWindow : (p.windowTaken k c e q).ch.SameWindow p.chans[c] := by
  have hok : (p.windowOk c e).ch.SameWindow p.chans[c] := ⟨rfl, rfl, rfl, rfl, rfl, rfl, rfl, rfl⟩
  have hstrike : (p.windowStrike c).ch.SameWindow p.chans[c] := ⟨rfl, rfl, rfl, rfl, rfl, rfl, rfl, rfl⟩
  unfold windowTaken UnitView.cycleMark
  dsimp only
  split_ifs
  · exact hok
  · exact (UnitView.sameWindow_captured ..).trans hok
  · exact (UnitView.sameWindow_captured ..).trans hstrike

theorem windowTaken_frame : (p.windowTaken k c e q).found = none ∧ (p.windowTaken k c e q).ending = none
    ∧ (p.windowTaken k c e q).told = none ∧ (p.windowTaken k c e q).emitted = e.record.markCycle
    ∧ (p.windowTaken k c e q).lines = p.lines := by
  unfold windowTaken UnitView.cycleMark
  dsimp only
  split_ifs <;> exact ⟨rfl, rfl, rfl, rfl, rfl⟩

theorem nextWindow_sameWindow (u : UnitView) : u.nextWindow.ch.SameWindow u.ch := ⟨rfl, rfl, rfl, rfl, rfl, rfl, rfl, rfl⟩

theorem windowTaken_atBoundary (hstate : p.chans[c].state = .active) (hactive : p.chans[c].active = some e)
    (hbound : p.chans[c].bound = some q) : p.AtBoundary k c e q UnitView.windowEnd (p.windowTaken k c e q)
      (p.windowNatural c e) UnitView.nextWindow := by
  obtain ⟨hfound, hending, htold, -⟩ := windowTaken_frame (p := p) (k := k) (c := c) (e := e) (q := q)
  exact ⟨windowEnd_eq hactive hbound, windowTaken_sameWindow, hfound, hending, htold, hstate, hactive, hbound⟩

/-- The COUNT step has done its count, or has reached its strike limit, with the window that ends. -/
abbrev windowOwn (p : Part) (c : ChanId) (e : Step) : Prop :=
  p.chans[c].edgeCount < p.greatest c ∧ e.record.count ≠ 0 ∧ nextCount p.chans[c].okCount = e.record.count.toNat
    ∨ p.greatest c ≤ p.chans[c].edgeCount ∧ e.record.strikes ≠ 0 ∧ nextStrike p.chans[c].strikes = e.record.strikes.toNat

theorem windowNatural_own (h : p.windowOwn c e) : p.windowNatural c e
    = some (if p.chans[c].edgeCount < p.greatest c then .done else .noSignal) := by
  obtain ⟨hlt, hreached⟩ | ⟨hge, hreached⟩ := h
  · rw [windowNatural, if_pos hlt, if_pos hlt]
    exact StepRecord.natural_eq.1.2 hreached
  · rw [windowNatural, if_neg (Nat.not_lt.2 hge), if_neg (Nat.not_lt.2 hge)]
    exact StepRecord.strikeEnd_some hreached

theorem windowNatural_not_own (h : ¬p.windowOwn c e) : p.windowNatural c e = none := by
  by_cases hlt : p.chans[c].edgeCount < p.greatest c
  · rw [windowNatural, if_pos hlt]
    exact StepRecord.natural_eq.2.2 fun hreached => h (.inl ⟨hlt, hreached⟩)
  · rw [windowNatural, if_neg hlt]
    exact StepRecord.strikeEnd_none fun hreached => h (.inr ⟨Nat.not_lt.1 hlt, hreached⟩)

/-- The part once a window has ended, and before the step goes on or ends. -/
theorem windowTaken_part (p : Part) (k : Clock) (c : ChanId) (e : Step) (q : RingId) :
    p.withView c (p.windowTaken k c e q) = { p with
      chans := p.chans.set c
        (if p.chans[c].edgeCount < p.greatest c ∧ e.record.quiet = true then
          if p.chans[c].edgeCount < p.greatest c then (p.windowOk c e).ch else (p.windowStrike c).ch
        else (if p.chans[c].edgeCount < p.greatest c then (p.windowOk c e).ch
          else (p.windowStrike c).ch).afterCapture p.pool.hasShared)
      pool := if p.chans[c].edgeCount < p.greatest c ∧ e.record.quiet = true then p.pool
        else p.poolAfterCapture c q k.tb (.capture e.record.tag (decide (p.greatest c ≤ p.chans[c].edgeCount)) false
          p.chans[c].edgeCount)
      marks := if e.record.markCycle then p.marks.set c true else p.marks } := by
  unfold windowTaken UnitView.cycleMark
  by_cases hlt : p.chans[c].edgeCount < p.greatest c
  · have hge : decide (p.greatest c ≤ p.chans[c].edgeCount) = false := decide_eq_false (by omega)
    cases hquiet : e.record.quiet with
    | true =>
      simp only [hlt, if_true, true_and]
      rfl
    | false =>
      simp only [hlt, hge, if_true, true_and, Bool.false_eq_true, if_false]
      rfl
  · have hge : decide (p.greatest c ≤ p.chans[c].edgeCount) = true := decide_eq_true (by omega)
    simp only [hlt, hge, if_false, false_and]
    rfl

/-- The part once the next window of a COUNT step has begun, after an OK capture (R60). -/
theorem nextWindow_ok (p : Part) (k : Clock) (c : ChanId) (e : Step) (q : RingId)
    (hlt : p.chans[c].edgeCount < p.greatest c) : p.withView c (p.windowTaken k c e q).nextWindow = { p with
      chans := p.chans.set c
        (if e.record.quiet then { (p.windowOk c e).ch with counter := 0, phase := 0, edgeCount := 0, counted := true }
        else Channel.afterCapture { (p.windowOk c e).ch with counter := 0, phase := 0, edgeCount := 0, counted := true }
          p.pool.hasShared)
      pool := if e.record.quiet then p.pool
        else p.poolAfterCapture c q k.tb (.capture e.record.tag false false p.chans[c].edgeCount)
      marks := if e.record.markCycle then p.marks.set c true else p.marks } := by
  have hpool : (p.windowOk c e).pool = p.pool := rfl
  unfold windowTaken UnitView.cycleMark poolAfterCapture
  simp only [hlt, if_true, UnitView.captured, hpool]
  cases e.record.quiet with
  | true => rfl
  | false => cases p.pool.hasShared <;> rfl

/-- The part once the next window of a COUNT step has begun, after an overrange capture (R61). -/
theorem nextWindow_strike (p : Part) (k : Clock) (c : ChanId) (e : Step) (q : RingId)
    (hge : p.greatest c ≤ p.chans[c].edgeCount) : p.withView c (p.windowTaken k c e q).nextWindow = { p with
      chans := p.chans.set c
        (Channel.afterCapture { (p.windowStrike c).ch with counter := 0, phase := 0, edgeCount := 0, counted := true }
          p.pool.hasShared)
      pool := p.poolAfterCapture c q k.tb (.capture e.record.tag true false p.chans[c].edgeCount)
      marks := if e.record.markCycle then p.marks.set c true else p.marks } := by
  have hpool : (p.windowStrike c).pool = p.pool := rfl
  have hlt : ¬p.chans[c].edgeCount < p.greatest c := by omega
  unfold windowTaken UnitView.cycleMark poolAfterCapture
  simp only [hlt, if_false, UnitView.captured, hpool]
  cases p.pool.hasShared <;> rfl

end Part

/-- Settles O50: an edge is counted, and a window that ends is counted, and the step goes on or ends. -/
theorem countWindowsCountEdges : Obligations.CountWindowsCountEdges := by
  intro s c e q p ch r v greatest n m fresh ok marks hstate hactive hrunning hbound hkind
  have boundary : p.AtBoundary s.clock c e q UnitView.windowEnd (p.windowTaken s.clock c e q) (p.windowNatural c e)
      UnitView.nextWindow := Part.windowTaken_atBoundary hstate hactive hbound
  have windowEnds : ch.edgeTaken = true ∨ s.clock.edgeOf r ch.bLine = false → ch.counted = false →
      ch.phase + 1 = 2 ^ r.prescale.toNat → ch.counter = r.top.toNat → ch.windowEndDue s.clock = true := by
    intro hedge hcounted hphase hcounter
    refine (Channel.windowEndDue_iff hactive s.clock).2 ⟨?_, hrunning, beq_iff_eq.2 hkind, ⟨hcounted, hphase⟩, hcounter⟩
    rw [Bool.eq_false_iff]
    intro hwindow
    obtain ⟨htaken, -, -, his⟩ := (Channel.windowEdgeDue_iff hactive s.clock).1 hwindow
    rcases hedge with h | h
    · exact absurd (h.symm.trans htaken) (by decide)
    · exact absurd (h.symm.trans his) (by decide)
  refine ⟨fun htaken hedge => ?_, fun hedge hcounted hphase hcounter hhalt hstays => ⟨fun hlt h => ?_, fun hge h => ?_⟩, ?_⟩
  · exact State.onPart_unitEvent_quiet ((Channel.windowEdgeDue_iff hactive s.clock).2 ⟨htaken, hrunning, hkind, hedge⟩)
      (q := p.withView c (p.windowEdgeCounted c)) (Part.atUnit_runs_on rfl hstate hactive rfl rfl) rfl
  · have hnatural : p.windowNatural c e = none := by
      rw [Part.windowNatural, if_pos (show p.chans[c].edgeCount < p.greatest c from hlt)]
      exact StepRecord.natural_eq.2.2 fun hreached => h.elim hreached.1 (· hreached.2)
    have hgoes := boundary.goes_on hhalt hnatural hstays (Part.nextWindow_sameWindow _) rfl rfl
    rw [p.nextWindow_ok s.clock c e q hlt] at hgoes
    exact State.onPart_unitEvent (windowEnds hedge hcounted hphase hcounter) hgoes
  · have hnatural : p.windowNatural c e = none := by
      rw [Part.windowNatural, if_neg (show ¬p.chans[c].edgeCount < p.greatest c from Nat.not_lt.2 hge)]
      exact StepRecord.strikeEnd_none fun hreached => h.elim hreached.1 (· hreached.2)
    have hgoes := boundary.goes_on hhalt hnatural hstays (Part.nextWindow_sameWindow _) rfl rfl
    rw [p.nextWindow_strike s.clock c e q hge] at hgoes
    exact State.onPart_unitEvent (windowEnds hedge hcounted hphase hcounter) hgoes
  · intro taken silent p1 own status hedge hcounted hphase hcounter
    have hdue := windowEnds hedge hcounted hphase hcounter
    have hpart : p1 = p.withView c (p.windowTaken s.clock c e q) := (p.windowTaken_part s.clock c e q).symm
    have hstatus : status ≠ .halted := by
      simp only [status]
      split_ifs <;> decide
    have hown : own → p.windowNatural c e = some status := by
      intro howns
      rw [Part.windowNatural_own howns]
      simp only [status, howns, not_true_eq_false, if_false]
      rfl
    clear_value p1
    subst hpart
    refine ⟨fun hhalt howns hqueue hfault => ?_, fun e2 behind hhalt hcount hqueue hroom hgood hevaluation hruns hskip hfree => ?_,
      fun h law hhalt => ?_⟩
    · exact State.onPart_unitEvent hdue (boundary.ends_last hhalt (hown howns) hstatus hqueue hfault)
    · refine State.onPart_unitEvent hdue (boundary.followed hhalt ?_ hstatus hqueue hroom hgood hevaluation hruns hskip hfree)
      by_cases howns : own
      · exact .inl (hown howns)
      · exact .inr ⟨Part.windowNatural_not_own howns, hcount.resolve_right howns, if_pos howns⟩
    · exact State.onPart_unitEvent hdue (boundary.halted law hhalt)

end Sys2Proof.Machine
end

section
/-! PROOF. COUNT_STEP of a POSITION step (R11, R12, R15, R62 to R64, R67). -/

namespace Sys2Proof.Machine

theorem Channel.afterCapture_thresholdCount (ch : Channel) (admitted : Bool) :
    (ch.afterCapture admitted).thresholdCount = ch.thresholdCount := by
  cases admitted <;> rfl

theorem UnitView.sameWindow_arrived {u : UnitView} {ch : Channel} {r : StepRecord} (h : u.ch.SameWindow ch) :
    (UnitView.cycleMark r { u with ch := { u.ch with thresholdCount := u.ch.thresholdCount + 1 } }).ch.SameWindow ch := by
  obtain ⟨hstate, hactive, hqueue, harmed, hevaluation, hhalt, hbound, hfault⟩ := h
  exact ⟨hstate, hactive, hqueue, harmed, hevaluation, hhalt, hbound, hfault⟩

namespace UnitView
variable {x : UnitContext} {u : UnitView} {r : StepRecord}

/-- The view of a POSITION step whose position has moved, with the WRAP of a wrap offered (R62, R63). -/
def moved (x : UnitContext) (r : StepRecord) (u : UnitView) : UnitView :=
  if wraps x.wide (countsDown (x.clock.rises u.ch.bLine) (x.clock.before u.ch.aLine)) u.ch.position then
    UnitView.offerCapture x (.wrap r.tag (countsDown (x.clock.rises u.ch.bLine) (x.clock.before u.ch.aLine)))
      { u with ch := { u.ch with position := u.nextPosition x, edgeTaken := true } }
  else { u with ch := { u.ch with position := u.nextPosition x, edgeTaken := true } }

theorem countEdge_eq_moved : u.countEdge x r = if u.atThreshold x r then
      UnitView.cycleMark r { (u.moved x r).offerCapture x (.threshold r.tag (u.nextPosition x != r.top.toNat)
          (countsDown (x.clock.rises u.ch.bLine) (x.clock.before u.ch.aLine)) (u.nextPosition x)) with ch :=
        { ((u.moved x r).offerCapture x (.threshold r.tag (u.nextPosition x != r.top.toNat)
            (countsDown (x.clock.rises u.ch.bLine) (x.clock.before u.ch.aLine)) (u.nextPosition x))).ch with
          thresholdCount := ((u.moved x r).offerCapture x (.threshold r.tag (u.nextPosition x != r.top.toNat)
            (countsDown (x.clock.rises u.ch.bLine) (x.clock.before u.ch.aLine)) (u.nextPosition x))).ch.thresholdCount + 1 } }
    else u.moved x r := rfl

end UnitView

namespace Part
variable {p : Part} {k : Clock} {c : ChanId} {e : Step} {q : RingId} {u : UnitView} {r : StepRecord}

theorem poolAfterCapture_withView {tb : Ticks} {body : EntryBody} :
    (p.withView c u).poolAfterCapture c q tb body = (u.captured c q tb body).pool := by
  rw [poolAfterCapture, poolWith_withView]
  rfl

/-- The direction of the edge of the current tick (R62). -/
abbrev edgeDown (p : Part) (k : Clock) (c : ChanId) : Bool := decide (k.rises p.chans[c].bLine = k.before p.chans[c].aLine)

/-- The position that the edge of the current tick leads to (R62). -/
abbrev edgePosition (p : Part) (k : Clock) (c : ChanId) : Nat :=
  if p.edgeDown k c then (if p.chans[c].position = 0 then p.greatest c else p.chans[c].position - 1)
  else (if p.chans[c].position = p.greatest c then 0 else p.chans[c].position + 1)

/-- The edge of the current tick wraps the position (R63). -/
abbrev edgeWraps (p : Part) (k : Clock) (c : ChanId) : Prop :=
  if p.edgeDown k c then p.chans[c].position = 0 else p.chans[c].position = p.greatest c

/-- The edge of the current tick leads to a threshold of the step `r` (R64). -/
abbrev edgeArrives (p : Part) (k : Clock) (c : ChanId) (r : StepRecord) : Prop :=
  p.edgePosition k c = r.top.toNat ∨ p.edgePosition k c = r.cmp.toNat

/-- The view of a POSITION step whose position has moved, with the WRAP of a wrap offered (R62, R63). -/
def edgeMoved (p : Part) (k : Clock) (c : ChanId) (q : RingId) (r : StepRecord) : UnitView :=
  if p.edgeWraps k c then
    UnitView.captured { p.view c with ch := { p.chans[c] with position := p.edgePosition k c, edgeTaken := true } } c q k.tb
      (.wrap r.tag (p.edgeDown k c))
  else { p.view c with ch := { p.chans[c] with position := p.edgePosition k c, edgeTaken := true } }

/-- The THRESHOLD of an arrival (R64). -/
abbrev edgeThreshold (p : Part) (k : Clock) (c : ChanId) (r : StepRecord) : EntryBody :=
  .threshold r.tag (decide (p.edgePosition k c ≠ r.top.toNat)) (p.edgeDown k c) (p.edgePosition k c)

/-- The view of a POSITION step that has counted the edge of the current tick (R62 to R64). -/
def edgeTaken (p : Part) (k : Clock) (c : ChanId) (q : RingId) (r : StepRecord) : UnitView :=
  if p.edgeArrives k c r then
    UnitView.cycleMark r { (p.edgeMoved k c q r).captured c q k.tb (p.edgeThreshold k c r) with ch :=
      { ((p.edgeMoved k c q r).captured c q k.tb (p.edgeThreshold k c r)).ch with
        thresholdCount := ((p.edgeMoved k c q r).captured c q k.tb (p.edgeThreshold k c r)).ch.thresholdCount + 1 } }
  else p.edgeMoved k c q r

theorem sameWindow_edgeMoved : (p.edgeMoved k c q r).ch.SameWindow p.chans[c] := by
  unfold edgeMoved
  split
  · exact (UnitView.sameWindow_captured ..).trans ⟨rfl, rfl, rfl, rfl, rfl, rfl, rfl, rfl⟩
  · exact ⟨rfl, rfl, rfl, rfl, rfl, rfl, rfl, rfl⟩

theorem wraps_iff : wraps (p.wide c) (p.edgeDown k c) p.chans[c].position = true ↔ p.edgeWraps k c := by
  unfold wraps edgeWraps
  split <;> exact beq_iff_eq

theorem atThreshold_iff : (p.view c).atThreshold (p.context k c) r = true ↔ p.edgeArrives k c r := by
  have hnext : (p.view c).nextPosition (p.context k c) = p.edgePosition k c := rfl
  simp only [UnitView.atThreshold, hnext, Bool.or_eq_true, beq_iff_eq]

theorem moved_eq (hbound : p.chans[c].bound = some q) :
    (p.view c).moved (p.context k c) r = p.edgeMoved k c q r := by
  have hwrap := UnitView.offerCapture_eq (x := p.context k c)
    (u := { p.view c with ch := { p.chans[c] with position := p.edgePosition k c, edgeTaken := true } }) hbound
    (.wrap r.tag (p.edgeDown k c))
  have hmoved : (p.view c).moved (p.context k c) r = if wraps (p.wide c) (p.edgeDown k c) p.chans[c].position then
      UnitView.offerCapture (p.context k c) (.wrap r.tag (p.edgeDown k c))
        { p.view c with ch := { p.chans[c] with position := p.edgePosition k c, edgeTaken := true } }
      else { p.view c with ch := { p.chans[c] with position := p.edgePosition k c, edgeTaken := true } } := rfl
  rw [hmoved, hwrap]
  simp only [wraps_iff]
  rfl

theorem countEdge_eq (hbound : p.chans[c].bound = some q) :
    (p.view c).countEdge (p.context k c) r = p.edgeTaken k c q r := by
  have hthreshold : (p.edgeMoved k c q r).offerCapture (p.context k c) (p.edgeThreshold k c r)
      = (p.edgeMoved k c q r).captured c q k.tb (p.edgeThreshold k c r) :=
    UnitView.offerCapture_eq (sameWindow_edgeMoved.bound.trans hbound) _
  have hentry : EntryBody.threshold r.tag ((p.view c).nextPosition (p.context k c) != r.top.toNat)
      (countsDown ((p.context k c).clock.rises (p.view c).ch.bLine) ((p.context k c).clock.before (p.view c).ch.aLine))
      ((p.view c).nextPosition (p.context k c)) = p.edgeThreshold k c r := by
    have hdecide : ((p.view c).nextPosition (p.context k c) != r.top.toNat) = decide (p.edgePosition k c ≠ r.top.toNat) := by
      rw [Bool.eq_iff_iff, bne_iff_ne, decide_eq_true_iff]
      rfl
    rw [hdecide]
    rfl
  rw [UnitView.countEdge_eq_moved, moved_eq hbound, hentry, hthreshold]
  simp only [atThreshold_iff]
  rfl

theorem edgeMoved_frame : (p.edgeMoved k c q r).found = none ∧ (p.edgeMoved k c q r).ending = none
    ∧ (p.edgeMoved k c q r).told = none ∧ (p.edgeMoved k c q r).ch.thresholdCount = p.chans[c].thresholdCount := by
  unfold edgeMoved UnitView.captured
  split
  · refine ⟨rfl, rfl, rfl, ?_⟩
    exact Channel.afterCapture_thresholdCount _ _
  · exact ⟨rfl, rfl, rfl, rfl⟩

theorem sameWindow_edgeTaken : (p.edgeTaken k c q r).ch.SameWindow p.chans[c] := by
  unfold edgeTaken
  split
  · exact UnitView.sameWindow_arrived
      ((UnitView.sameWindow_captured (p.edgeMoved k c q r) c q k.tb (p.edgeThreshold k c r)).trans sameWindow_edgeMoved)
  · exact sameWindow_edgeMoved

theorem edgeTaken_frame : (p.edgeTaken k c q r).found = none ∧ (p.edgeTaken k c q r).ending = none
    ∧ (p.edgeTaken k c q r).told = none := by
  obtain ⟨hfound, hending, htold, -⟩ := edgeMoved_frame (p := p) (k := k) (c := c) (q := q) (r := r)
  unfold edgeTaken
  split
  · exact ⟨hfound, hending, htold⟩
  · exact ⟨hfound, hending, htold⟩

theorem edgeTaken_thresholdCount : (p.edgeTaken k c q r).ch.thresholdCount
    = if p.edgeArrives k c r then p.chans[c].thresholdCount + 1 else p.chans[c].thresholdCount := by
  obtain ⟨-, -, -, hcount⟩ := edgeMoved_frame (p := p) (k := k) (c := c) (q := q) (r := r)
  unfold edgeTaken
  split
  · exact congrArg (· + 1) ((Channel.afterCapture_thresholdCount _ _).trans hcount)
  · exact hcount

/-- The channel of a POSITION step whose position has moved (R62, R63). -/
def edgeMovedChannel (p : Part) (k : Clock) (c : ChanId) : Channel :=
  if p.edgeWraps k c then
    Channel.afterCapture { p.chans[c] with position := p.edgePosition k c, edgeTaken := true } p.pool.hasShared
  else { p.chans[c] with position := p.edgePosition k c, edgeTaken := true }

/-- The pool once the WRAP of an edge was offered (R63). -/
def edgeMovedPool (p : Part) (k : Clock) (c : ChanId) (q : RingId) (r : StepRecord) : Pool :=
  if p.edgeWraps k c then p.poolAfterCapture c q k.tb (.wrap r.tag (p.edgeDown k c)) else p.pool

theorem edgeMoved_eq : p.edgeMoved k c q r
    = { p.view c with ch := p.edgeMovedChannel k c, pool := p.edgeMovedPool k c q r } := by
  unfold edgeMoved edgeMovedChannel edgeMovedPool
  split <;> rfl

/-- The part after COUNT_STEP took its edge (R62 to R64). -/
theorem withView_edgeTaken : p.withView c (p.edgeTaken k c q r) = p.edgeCounted k c q r := by
  have hcounted : p.edgeCounted k c q r
      = if p.edgeArrives k c r then
          { p.withView c (p.edgeMoved k c q r) with
            chans := p.chans.set c { (p.edgeMoved k c q r).ch.afterCapture (p.edgeMoved k c q r).pool.hasShared with
              thresholdCount := p.chans[c].thresholdCount + 1 }
            pool := (p.withView c (p.edgeMoved k c q r)).poolAfterCapture c q k.tb (p.edgeThreshold k c r)
            marks := if r.markCycle then p.marks.set c true else p.marks }
        else p.withView c (p.edgeMoved k c q r) := by
    rw [edgeMoved_eq]
    rfl
  have hcount : (p.edgeMoved k c q r).ch.thresholdCount = p.chans[c].thresholdCount := edgeMoved_frame.2.2.2
  have hemitted : (p.edgeMoved k c q r).emitted = false := by
    rw [edgeMoved_eq]
    rfl
  rw [hcounted, edgeTaken]
  split
  · rw [poolAfterCapture_withView]
    simp only [withView, UnitView.cycleMark, UnitView.captured, hemitted, Bool.false_or,
      Channel.afterCapture_thresholdCount, hcount]
  · rfl

/-! ### Both outcomes of COUNT_STEP -/

theorem edgeCounted_getElem : (p.edgeCounted k c q r).chans[c] = (p.edgeTaken k c q r).ch := by
  rw [← withView_edgeTaken, withView_getElem]

theorem thresholdEnds_iff : ((p.edgeCounted k c q r).chans[c].thresholdCount = p.chans[c].thresholdCount + 1 ∧ r.count ≠ 0
      ∧ p.chans[c].thresholdCount + 1 = r.count.toNat)
    ↔ ((p.view c).atThreshold (p.context k c) r && r.countReached (p.edgeTaken k c q r).ch.thresholdCount) = true := by
  rw [edgeCounted_getElem, edgeTaken_thresholdCount, Bool.and_eq_true, atThreshold_iff, StepRecord.countReached_iff]
  by_cases harrives : p.edgeArrives k c r <;> simp [harrives]

theorem countStep_eq (hactive : p.chans[c].active = some e) (hbound : p.chans[c].bound = some q) :
    UnitView.countStep (p.context k c) (p.view c)
      = if (p.view c).atThreshold (p.context k c) e.record
            && e.record.countReached (p.edgeTaken k c q e.record).ch.thresholdCount then
          (p.edgeTaken k c q e.record).endAndHandOver (p.context k c) .done
        else p.edgeTaken k c q e.record := by
  have hview : (p.view c).ch.active = some e := hactive
  unfold UnitView.countStep
  rw [hview]
  simp only [countEdge_eq hbound]

end Part

/-- Settles O51: an edge moves the position, and a threshold may end the step. -/
theorem countStepMovesThePosition : Obligations.CountStepMovesThePosition := by
  intro s c e q p ch r k p1 ends hstate hactive hrunning htaken hbound hkind hedge
  have hdue : ch.countStepDue k = true :=
    (Channel.countStepDue_iff hactive k).2 ⟨htaken, hedge, hrunning, beq_iff_eq.2 hkind⟩
  have hpart : p.withView c (p.edgeTaken k c q r) = p1 := Part.withView_edgeTaken
  have hevent := Part.countStep_eq (k := k) hactive hbound
  have hends : ends ↔ _ := Part.thresholdEnds_iff (p := p) (k := k) (c := c) (q := q) (r := r)
  have same : (p.edgeTaken k c q r).ch.SameWindow ch := Part.sameWindow_edgeTaken
  obtain ⟨hfound, hending, htold⟩ := Part.edgeTaken_frame (p := p) (k := k) (c := c) (q := q) (r := r)
  have hstands := same.state.trans hstate
  have hruns := same.active.trans hactive
  have hended : ends → UnitView.countStep (p.context k c) (p.view c)
      = (p.edgeTaken k c q r).endAndHandOver (p.context k c) .done :=
    fun h => hevent.trans (if_pos (hends.1 h))
  have hEnds : ch.halt = none → (p.edgeTaken k c q r).Ends e q := fun hhalt =>
    ⟨same.halt.trans hhalt, hstands, hruns, same.bound.trans hbound, hfound, hending, htold⟩
  refine ⟨fun hnot => ?_, fun h hqueue hhalt hfault => ?_,
    fun e2 behind h hqueue hroom hgood hevaluation hhalt hbehind hskip hfree => ?_⟩
  · rw [← hpart]
    exact State.onPart_unitEvent hdue (Part.atUnit_runs_on (hevent.trans (if_neg (hnot ∘ hends.2)))
      hstands hruns hending htold)
  · rw [← hpart]
    exact State.onPart_unitEvent hdue (Part.atUnit_ends_last (hEnds hhalt) (by decide) (hended h)
      (same.queue.trans hqueue) (same.fetchFault.trans hfault))
  · rw [← hpart]
    rw [← hpart] at hfree
    exact State.onPart_unitEvent hdue (Part.atUnit_followed (hEnds hhalt) (by decide) (hended h)
      (same.queue.trans hqueue) (by rw [same.window_eq]; exact hroom) (same.armed.trans hgood)
      (same.evaluation.trans hevaluation) hbehind (by rw [same.fetchFault]; exact hskip) hfree)

end Sys2Proof.Machine
end

section
/-! PROOF. A step read that returns to a window: it joins, is discarded, or is armed behind an active step, which it preempts or
supersedes (R6, R8, R10, R11, R13, R18, R24, R67, R77, R78, R81). -/

namespace Sys2Proof.Machine

/-! ### Reads that change nothing but the window -/

theorem UnitView.settle_stands_as {u : UnitView} (hstate : u.ch.derivedState = u.ch.state) (hending : u.ending = none) :
    u.settle = u := by
  rw [settle_of_not_park (by simp [hending]), hstate]

theorem Channel.Law.derivedState_eq {ch : Channel} (law : ch.Law) : ch.derivedState = ch.state := by
  obtain ⟨hactive, hwaiting, hheld, hidle, -, -, hevaluates, -⟩ := law
  cases hstate : ch.state <;> simp_all [derivedState]

namespace Part
variable {p : Part} {k : Clock} {c : ChanId} {r : StepRecord} {e : Step} {rest : List Step}

theorem arrival_queue (hqueue : p.chans[c].queue = e :: rest) :
    (p.arrival c r).ch.queue = e :: (rest ++ [(⟨p.chans[c].fetchIndex, r⟩ : Step)]) := by
  have happended : (p.arrival c r).ch.queue = p.chans[c].queue ++ [(⟨p.chans[c].fetchIndex, r⟩ : Step)] := rfl
  rw [happended, hqueue, List.cons_append]

/-- A record joins the window of a channel which does nothing about it at this event (R6). -/
theorem stepRead_waits (hstale : p.chans[c].stale = false) (steps : p.chans[c].noSteps = false)
    (hturn : (p.arrival c r).turn (p.context k c) = none) (hstate : (p.arrival c r).ch.derivedState = p.chans[c].state) :
    p.stepRead k c (some r) = p.withView c (p.arrival c r) :=
  stepRead_joins hstale steps (n := 0)
    (.stop hturn (congrArg _ (UnitView.settle_stands_as hstate rfl))) (by omega)

/-- The result of a step read is discarded (R6, R24). -/
theorem stepRead_discards {result : Option StepRecord} (law : p.chans[c].Law)
    (h : p.chans[c].stale = true ∨ p.chans[c].noSteps = true) : p.stepRead k c result
      = { p with chans := p.chans.set c { p.chans[c] with fetchInFlight := false, stale := false } } := by
  have hreads : (p.view c).readReturns (p.context k c) result = (p.view c).fetched false := by
    obtain ⟨-, hreads⟩ | ⟨hstale, hsteps, -⟩ := (p.view c).readReturns_cases (p.context k c) result
    · exact hreads
    · rcases h with h | h
      · exact absurd (h.symm.trans hstale) (by decide)
      · exact absurd (h.symm.trans hsteps) (by decide)
  have hview : (p.view c).fetched false
      = { p.view c with ch := { p.chans[c] with fetchInFlight := false, stale := false } } := by
    simp only [UnitView.fetched, Bool.or_false]
    rfl
  rw [stepRead, atUnit_untold (f := fun x u => u.readReturns x result) (hreads.trans hview) rfl,
    UnitView.settle_stands_as law.derivedState_eq rfl]
  rfl

end Part

/-! ### The edge of a POSITION step, and the armed outcome behind it -/

/-- The view with this armed outcome. -/
abbrev UnitView.rearmed (u : UnitView) (armed : Armed) : UnitView := { u with ch := { u.ch with armed := armed } }

namespace UnitView
variable {x : UnitContext} {u : UnitView} {r : StepRecord} {armed : Armed}

theorem offerCapture_rearmed (body : EntryBody) :
    (u.rearmed armed).offerCapture x body = (u.offerCapture x body).rearmed armed := by
  unfold offerCapture admitted
  cases hshared : u.pool.hasShared with
  | false => rfl
  | true =>
    cases hbound : u.ch.bound with
    | none => simp only [hbound]; rfl
    | some q => rfl

theorem moved_rearmed : (u.rearmed armed).moved x r = (u.moved x r).rearmed armed := by
  unfold moved
  have hoffer := offerCapture_rearmed (x := x) (armed := armed)
    (u := { u with ch := { u.ch with position := u.nextPosition x, edgeTaken := true } })
    (.wrap r.tag (countsDown (x.clock.rises u.ch.bLine) (x.clock.before u.ch.aLine)))
  by_cases hwraps : wraps x.wide (countsDown (x.clock.rises u.ch.bLine) (x.clock.before u.ch.aLine)) u.ch.position = true
  · rw [if_pos hwraps, if_pos hwraps]
    exact hoffer
  · rw [if_neg hwraps, if_neg hwraps]
    rfl

theorem countEdge_rearmed : (u.rearmed armed).countEdge x r = (u.countEdge x r).rearmed armed := by
  have hat : (u.rearmed armed).atThreshold x r = u.atThreshold x r := rfl
  rw [countEdge_eq_moved, countEdge_eq_moved, moved_rearmed, offerCapture_rearmed, hat]
  split <;> rfl

end UnitView

end Sys2Proof.Machine
end

section
/-! PROOF. A step read that returns behind an active step (R8, R10, R11, R13, R18, R67, R77, R78, R81). -/

namespace Sys2Proof.Machine

/-- The step `r` that the active step `a` of channel `ch` is to count an edge for before `r` supersedes it (R67). -/
abbrev Channel.countsFirst (ch : Channel) (k : Clock) (a : Step) (r : StepRecord) : Prop :=
  (a.record.kindOf = some .position ∧ a.record.count = 0) ∧ r.start = 0 ∧ r.kindOf = some .position
    ∧ ch.running = true ∧ ch.edgeTaken = false ∧ (k.rises ch.bLine = true ∨ k.falls ch.bLine = true)

namespace Part

/-- Channel `c` runs the step `a`, and `e` is alone behind it and not armed yet. -/
structure Behind (p : Part) (c : ChanId) (a e : Step) (q : RingId) : Prop where
  state : p.chans[c].state = .active
  active : p.chans[c].active = some a
  queue : p.chans[c].queue = [e]
  armed : p.chans[c].armed = .none
  halt : p.chans[c].halt = none
  evaluation : p.chans[c].evaluation = .none
  bound : p.chans[c].bound = some q

variable {p p' : Part} {k : Clock} {c : ChanId} {a e : Step} {q : RingId} {n : Nat} {status : DoneStatus}

theorem withView_view (p : Part) (c : ChanId) : p.withView c (p.view c) = p := by
  simp [withView, view]

/-- The view of the unit of channel `c` when the step `e` ends its active step `a` (R13, R18, R67). -/
def overtaken (p : Part) (k : Clock) (c : ChanId) (a e : Step) (q : RingId) : UnitView :=
  if p.chans[c].countsFirst k a e.record then p.edgeTaken k c q a.record else p.view c

theorem withView_overtaken : p.withView c (p.overtaken k c a e q)
    = if p.chans[c].countsFirst k a e.record then p.edgeCounted k c q a.record else p := by
  unfold overtaken
  split
  · exact withView_edgeTaken
  · exact withView_view p c

theorem sameWindow_overtaken : (p.overtaken k c a e q).ch.SameWindow p.chans[c] := by
  unfold overtaken
  split
  · exact sameWindow_edgeTaken
  · exact ⟨rfl, rfl, rfl, rfl, rfl, rfl, rfl, rfl⟩

theorem overtaken_frame : (p.overtaken k c a e q).found = none ∧ (p.overtaken k c a e q).told = none := by
  obtain ⟨hfound, -, htold⟩ := edgeTaken_frame (p := p) (k := k) (c := c) (q := q) (r := a.record)
  unfold overtaken
  split
  · exact ⟨hfound, htold⟩
  · exact ⟨rfl, rfl⟩

namespace Behind
variable (b : p.Behind c a e q)
include b

theorem steps : p.chans[c].noSteps = false := Channel.steps_of_open (.inr (.inr (.inl b.state))) b.halt

theorem turn_immediate (hstart : e.record.start = 1) : ((p.view c).rearmed .good).turn (p.context k c)
    = some (((p.overtaken k c a e q).rearmed .good).endActive (p.context k c) .preempted false) := by
  have hno : ¬p.chans[c].countsFirst k a e.record := fun h => absurd (hstart.symm.trans h.2.1) (by decide)
  rw [overtaken, if_neg hno]
  exact UnitView.turn_preempt b.steps b.queue rfl b.active hstart

theorem turn_supersedes (hstart : e.record.start ≠ 1) (hcontinuous : a.record.kindOf = some .position ∧ a.record.count = 0) :
    ((p.view c).rearmed .good).turn (p.context k c)
      = some (((p.overtaken k c a e q).rearmed .good).endActive (p.context k c) .superseded false) := by
  rw [UnitView.turn_supersede (u := (p.view c).rearmed .good) b.steps b.queue rfl b.active hstart hcontinuous]
  have hdue := Channel.countStepDue_iff (ch := ((p.view c).rearmed .good).ch) b.active k
  obtain ⟨hchain, hkind, hedge, hsupersede⟩ | ⟨hnot, hsupersede⟩ :=
    UnitView.supersede_cases (p.context k c) a e ((p.view c).rearmed .good)
  · obtain ⟨htaken, hline, hrunning, -⟩ := hdue.1 hedge
    rw [hsupersede, UnitView.countEdge_rearmed, countEdge_eq b.bound, overtaken,
      if_pos ⟨hcontinuous, hchain, beq_iff_eq.1 hkind, hrunning, htaken, hline⟩]
  · rw [hsupersede, overtaken, if_neg]
    rintro ⟨-, hchain, hkind, hrunning, htaken, hline⟩
    exact hnot ⟨hchain, beq_iff_eq.2 hkind, hdue.2 ⟨htaken, hline, hrunning, beq_iff_eq.2 hcontinuous.1⟩⟩

end Behind

end Part

/-! ### The overtaken step has ended -/

/-- The unit is about to end its active step `a`, with `e` alone behind it. -/
structure UnitView.Overtaken (v : UnitView) (a e : Step) (q : RingId) : Prop where
  steps : v.ch.noSteps = false
  active : v.ch.active = some a
  queue : v.ch.queue = [e]
  evaluation : v.ch.evaluation = .none
  bound : v.ch.bound = some q
  found : v.found = none

/-- The view once the active step `a` of channel `c` has ended with this status. -/
abbrev UnitView.overtakenEnd (v : UnitView) (c : ChanId) (q : RingId) (tb : Ticks) (a : Step) (status : DoneStatus) :
    UnitView := v.ended c q tb a (endedBody v.ch a status)

namespace UnitView.Overtaken
variable {p p' : Part} {k : Clock} {c : ChanId} {a e : Step} {q : RingId} {n : Nat} {status : DoneStatus} {u v : UnitView}
  (o : v.Overtaken a e q)
include o

/-- The step `a` ends at the next turn of the unit. -/
theorem ends (hturn : u.turn (p.context k c) = some ((v.rearmed .good).endActive (p.context k c) status false))
    (htold : v.told = u.told) (hstatus : status ≠ .halted)
    (hs : p.Settles k c ((v.overtakenEnd c q k.tb a status).rearmed .good) n p') : p.Settles k c u (n + 1) p' := by
  have hend := UnitView.endActive_eq (x := p.context k c) (u := v.rearmed .good) (status := status)
    (forced := false) o.active o.bound o.found
  rw [Channel.doneBody_ended hstatus] at hend
  exact .turn (hturn.trans (congrArg some hend)) htold hs

variable (hturn : u.turn (p.context k c) = some ((v.rearmed .good).endActive (p.context k c) status false))
  (htold : v.told = u.told) (hstatus : status ≠ .halted)
include hturn htold hstatus

theorem hands_over (hdue : e.record.isDueNow k.tb) (hshared : v.pool.hasShared = true)
    (hfree : v.pool.reservedBusy c = false) : p.Settles k c u 3
      ((p.withView c v).stepHandsOver c q k.tb a status e (e.record.isLate k.tb)) := by
  have hbusy : (v.overtakenEnd c q k.tb a status).pool.reservedBusy c = false := by
    rw [Part.ended_reservedBusy, hshared, hfree]
    rfl
  have hstarts := Part.settles_due_starts (p := p) (k := k) (c := c) (q := q) (rest := [])
    (u := (v.overtakenEnd c q k.tb a status).rearmed .good) o.steps o.queue rfl rfl o.evaluation hdue hbusy
    (by simp [Step.runsOn]) (by simp)
  have hsame := Part.stepStarts_congr (p := p) (c := c) (q := q) (e := e) (rest := []) (tb := k.tb)
    (late := e.record.isLate k.tb) (held := false) (u := v.overtakenEnd c q k.tb a status)
    (ch := { (v.overtakenEnd c q k.tb a status).ch with armed := .good }) rfl rfl
  rw [Part.stepHandsOver_withView hshared, ← hsame]
  exact o.ends hturn htold hstatus hstarts

theorem holds (hdue : e.record.isDueNow k.tb) (hshared : v.pool.hasShared = false) :
    p.Settles k c u 3
      ((p.withView c v).stepHolds c q k.tb a status e (e.record.isLate k.tb)) := by
  have hbusy : (v.overtakenEnd c q k.tb a status).pool.reservedBusy c = true := by
    rw [Part.ended_reservedBusy, hshared]
    simp
  rw [Part.stepHolds_withView hshared o.queue o.evaluation]
  exact o.ends hturn htold hstatus (Part.settles_due_held (p := p) (k := k) (c := c)
    (u := (v.overtakenEnd c q k.tb a status).rearmed .good) o.steps o.queue rfl rfl o.evaluation hdue hbusy)

theorem waits_early (hstart : e.record.start = 2) (hd : 0 < e.record.lateness k.tb ∧ e.record.lateness k.tb < 2 ^ 47) :
    p.Settles k c u 2
      (p.withView c ((v.overtakenEnd c q k.tb a status).stands .waiting .good (.atTime e.record.startTime))) :=
  o.ends hturn htold hstatus (Part.settles_early (p := p) (k := k) (c := c)
    (u := (v.overtakenEnd c q k.tb a status).rearmed .good) o.steps o.queue rfl rfl o.evaluation hstart hd)

theorem waits_onMark (hstart : e.record.start = 3) : p.Settles k c u 2
    (p.withView c ((v.overtakenEnd c q k.tb a status).stands .waiting .good
      (.onMark e.record.source (e.record.expiry k.tb)))) :=
  o.ends hturn htold hstatus (Part.settles_onMark (p := p) (k := k) (c := c)
    (u := (v.overtakenEnd c q k.tb a status).rearmed .good) o.steps o.queue rfl rfl o.evaluation hstart)

theorem skipped_waits (h : e.record.isSkipped k.tb) (hshared : (v.overtakenEnd c q k.tb a status).pool.hasShared = false)
    (hbusy : (v.overtakenEnd c q k.tb a status).pool.reservedBusy c = true) : p.Settles k c u 2
      (p.withView c ((v.overtakenEnd c q k.tb a status).stands .held
        (.removal .lateSkipped (e.record.skippedValue k.tb) k.tb) .none)) :=
  o.ends hturn htold hstatus (Part.settles_skipped_waits (p := p) (k := k) (c := c) (e := e) (rest := [])
    (u := (v.overtakenEnd c q k.tb a status).rearmed .good) o.steps o.queue rfl rfl o.evaluation h hshared hbusy)

theorem skipped (h : e.record.isSkipped k.tb) (hfault : v.ch.fetchFault = false)
    (hroom : (v.overtakenEnd c q k.tb a status).pool.hasShared = true
      ∨ (v.overtakenEnd c q k.tb a status).pool.reservedBusy c = false) : p.Settles k c u 3
      ((p.withView c (v.overtakenEnd c q k.tb a status).parked).removalStaged c q
        (v.overtakenEnd c q k.tb a status).pool.slotForReport k.tb e .lateSkipped (e.record.skippedValue k.tb) []) :=
  o.ends hturn htold hstatus (Part.settles_skipped (p := p) (k := k) (c := c)
    (u := (v.overtakenEnd c q k.tb a status).rearmed .good) o.steps o.queue rfl rfl o.evaluation h o.bound
    hroom (Part.settles_removed_last (u := v.overtakenEnd c q k.tb a status) o.steps rfl
      hfault))

end UnitView.Overtaken

/-! ### The arrival behind an active step -/

namespace Part
variable {p p' : Part} {k : Clock} {c : ChanId} {a e : Step} {q : RingId} {r : StepRecord} {n : Nat}

theorem Behind.overtaken (b : p.Behind c a e q) : (p.overtaken k c a e q).Overtaken a e q where
  steps := Channel.steps_of_open (.inr (.inr (.inl (sameWindow_overtaken.state.trans b.state))))
    (sameWindow_overtaken.halt.trans b.halt)
  active := sameWindow_overtaken.active.trans b.active
  queue := sameWindow_overtaken.queue.trans b.queue
  evaluation := sameWindow_overtaken.evaluation.trans b.evaluation
  bound := sameWindow_overtaken.bound.trans b.bound
  found := overtaken_frame.1

/-- The part once the record `r` has joined the window of channel `c` behind the active step. -/
abbrev queued (p : Part) (c : ChanId) (r : StepRecord) : Part :=
  { p with chans := p.chans.set c { p.chans[c] with
      queue := [(⟨p.chans[c].fetchIndex, r⟩ : Step)]
      fetchIndex := bump p.chans[c].fetchIndex p.chans[c].ringSize
      fetchInFlight := false, stale := false } }

theorem queued_getElem : (p.queued c r).chans[c] = { p.chans[c] with
    queue := [(⟨p.chans[c].fetchIndex, r⟩ : Step)]
    fetchIndex := bump p.chans[c].fetchIndex p.chans[c].ringSize
    fetchInFlight := false, stale := false } := Vector.getElem_set_self ..

theorem queued_view (hqueue : p.chans[c].queue = []) : (p.queued c r).view c = p.arrival c r := by
  rw [view, queued_getElem, arrival, hqueue]
  rfl

theorem Settles.of_queued {u : UnitView} (hs : (p.queued c r).Settles k c u n p') : p.Settles k c u n p' := by
  obtain ⟨m, v, hle, hturns, hstop, htold, rfl⟩ := hs
  refine ⟨m, v, hle, hturns, hstop, htold, ?_⟩
  simp only [withView, Vector.set_set]

/-- A read returns behind the active step, with nothing else in the window. -/
theorem stepRead_behind (hqueue : p.chans[c].queue = []) (hstale : p.chans[c].stale = false)
    (steps : p.chans[c].noSteps = false)
    (hs : (p.queued c r).Settles k c ((p.queued c r).view c) n p') (hn : n ≤ 32) : p.stepRead k c (some r) = p' := by
  refine stepRead_joins hstale steps ?_ hn
  rw [← queued_view hqueue]
  exact hs.of_queued

end Part

end Sys2Proof.Machine
end

section
/-! PROOF. Step reads that return to a window (R6, R8, R10, R11, R13, R18, R24, R67, R77, R78, R81). -/

namespace Sys2Proof.Machine

namespace Part
variable {p p' : Part} {k : Clock} {c : ChanId} {a e : Step} {q : RingId} {n code : Nat}

namespace Behind
variable (b : p.Behind c a e q)
include b

theorem good (hvalid : validate p.chans[c] (p.wide c) e.record = none)
    (hs : p.Settles k c ((p.view c).rearmed .good) n p') : p.Settles k c (p.view c) (n + 1) p' :=
  settles_arm_good b.steps b.queue b.armed hvalid hs

theorem good_waits (hvalid : validate p.chans[c] (p.wide c) e.record = none) (hstart : e.record.start ≠ 1)
    (hcontinuous : ¬(a.record.kindOf = some .position ∧ a.record.count = 0)) :
    p.Settles k c (p.view c) 1 (p.withView c ((p.view c).rearmed .good)) :=
  b.good hvalid (.stop (UnitView.turn_runs_on (u := (p.view c).rearmed .good) b.steps b.queue rfl b.active hstart hcontinuous)
    (congrArg _ (UnitView.settle_running (u := (p.view c).rearmed .good) b.state b.active rfl)))

theorem bad_removed (hvalid : validate p.chans[c] (p.wide c) e.record = some code) (hshared : p.pool.hasShared = true) :
    p.Settles k c (p.view c) 2 (p.removalStaged c q p.pool.slotForReport k.tb e .badStep code []) := by
  have hremoved := settles_removed_behind (p := p) (k := k) (c := c) (q := q) (u := p.view c) (e := e) (rest := [])
    (slot := p.pool.slotForReport) (time := k.tb) (status := .badStep) (value := code) b.steps b.active (by simp [view])
    (by simp [Step.runsOn]) (by simp)
  rw [withView_view] at hremoved
  refine settles_arm_bad (n := 1) b.steps b.queue b.armed hvalid (.turn (UnitView.turn_removes
    (u := (p.view c).rearmed (.removal .badStep code k.tb)) b.steps b.queue rfl b.bound ?_) rfl hremoved)
  exact (UnitView.canStage_of_active (u := (p.view c).rearmed (.removal .badStep code k.tb)) b.active).trans hshared

theorem bad_waits (hvalid : validate p.chans[c] (p.wide c) e.record = some code) (hshared : p.pool.hasShared = false) :
    p.Settles k c (p.view c) 1 (p.withView c ((p.view c).rearmed (.removal .badStep code k.tb))) := by
  refine settles_arm_bad b.steps b.queue b.armed hvalid (.stop (UnitView.turn_removal_waits
    (u := (p.view c).rearmed (.removal .badStep code k.tb)) b.steps b.queue rfl ?_) (congrArg _ (UnitView.settle_running
      (u := (p.view c).rearmed (.removal .badStep code k.tb)) b.state b.active rfl)))
  exact (UnitView.canStage_of_active (u := (p.view c).rearmed (.removal .badStep code k.tb)) b.active).trans hshared

theorem turn_ends (h : e.record.start = 1 ∨ a.record.kindOf = some .position ∧ a.record.count = 0) :
    ((p.view c).rearmed .good).turn (p.context k c) = some (((p.overtaken k c a e q).rearmed .good).endActive
      (p.context k c) (if e.record.start = 1 then .preempted else .superseded) false) := by
  by_cases hstart : e.record.start = 1
  · rw [if_pos hstart]
    exact b.turn_immediate hstart
  · rw [if_neg hstart]
    exact b.turn_supersedes hstart (h.resolve_left hstart)

/-- A step that is no CHAIN step supersedes a POSITION step which counts no edge first (R67). -/
theorem turn_ends_uncounted (hcontinuous : a.record.kindOf = some .position ∧ a.record.count = 0)
    (hstart : e.record.start = 2 ∨ e.record.start = 3) : ((p.view c).rearmed .good).turn (p.context k c)
      = some (((p.view c).rearmed .good).endActive (p.context k c) .superseded false) := by
  have hone : e.record.start ≠ 1 := by rcases hstart with h | h <;> simp [h]
  have hno : ¬p.chans[c].countsFirst k a e.record := by
    rintro ⟨-, hzero, -⟩
    rcases hstart with h | h <;> simp [h] at hzero
  rw [b.turn_supersedes hone hcontinuous (q := q), Part.overtaken, if_neg hno]

end Behind

theorem status_ne_halted : (if e.record.start = 1 then DoneStatus.preempted else .superseded) ≠ .halted := by
  split <;> decide

theorem stepEnded_stands {tb : Ticks} {state : ChState} {armed : Armed} {evaluation : Evaluation}
    {ended : Part} (hended : ended = p.stepEnded c q tb a .superseded) :
    { ended with chans := ended.chans.set c { ended.chans[c] with state := state, armed := armed, evaluation := evaluation } }
      = p.withView c (((p.view c).overtakenEnd c q tb a .superseded).stands state armed evaluation) := by
  have hview := stepEnded_withView (p := p) (c := c) (q := q) (u := p.view c) (e := a) (status := .superseded) (tb := tb)
  rw [withView_view] at hview
  rw [hended, hview, withView_set, withView_getElem]
  rfl

end Part

/-- Settles O33: a record joins, is discarded, is armed, preempts, supersedes or is removed. -/
theorem readsJoinTheWindowOrAreDiscarded : Obligations.ReadsJoinTheWindowOrAreDiscarded := by
  refine ⟨?_, ?_, ?_⟩
  · intro s w c e rest answers p ch hqueue hhalt hstale hcase
    have hjoined : (p.arrival c (StepRecord.ofBytes w)).ch.queue
        = e :: (rest ++ [(⟨ch.fetchIndex, StepRecord.ofBytes w⟩ : Step)]) := Part.arrival_queue hqueue
    have hsteps : ch.noSteps = false := by
      refine Channel.steps_of_open ?_ hhalt
      tauto
    refine exec_stepReadReturn answers (Part.stepRead_waits (k := s.clock) hstale hsteps ?_ ?_) rfl
    · obtain ⟨-, harmed, a, hactive, hstart, hcontinuous⟩ | ⟨-, hactive, harmed, hevaluation⟩
        | ⟨-, hactive, hevaluation, hbusy, ⟨late, harmed⟩ | ⟨hshared, status, value, time, harmed⟩⟩ := hcase
      · exact UnitView.turn_runs_on hsteps hjoined harmed hactive hstart hcontinuous
      · exact UnitView.turn_evaluates hsteps hjoined harmed hactive hevaluation
      · exact UnitView.turn_held hsteps hjoined harmed hactive hbusy
      · exact UnitView.turn_removal_waits hsteps hjoined harmed
          ((UnitView.canStage_eq_false_iff (x := p.context s.clock c) hactive).mpr ⟨hshared, hbusy⟩)
    · obtain ⟨hstate, -, a, hactive, -⟩ | ⟨hstate, hactive, -, hevaluation⟩ | ⟨hstate, hactive, hevaluation, -⟩ := hcase
      · exact (Channel.derivedState_active (ch := (p.arrival c (StepRecord.ofBytes w)).ch) hsteps hactive).trans hstate.symm
      · exact (Channel.derivedState_waiting (ch := (p.arrival c (StepRecord.ofBytes w)).ch) hsteps hactive hjoined hevaluation).trans hstate.symm
      · exact (Channel.derivedState_held (ch := (p.arrival c (StepRecord.ofBytes w)).ch) hsteps hactive hjoined hevaluation).trans hstate.symm
  · intro s w c answers p ch law hcase
    have hdiscard : ch.stale = true ∨ ch.noSteps = true := by
      refine hcase.imp_right fun h => ?_
      rcases h with h | h | h <;> simp [Channel.noSteps, h]
    exact ⟨exec_stepReadReturn answers (Part.stepRead_discards (k := s.clock) law hdiscard) rfl,
      exec_stepReadError answers (Part.stepRead_discards (k := s.clock) law hdiscard) rfl⟩
  · intro s w c a q answers p ch r e next arrived queued base continuous edge p1 status d due late hstate hactive hqueue
      harmed hhalt hevaluation hstale hbound
    have hbase : base.chans[c] = queued := Part.queued_getElem
    have b : base.Behind c a e q := by
      constructor <;> rw [hbase]
      exacts [hstate, hactive, harmed, hhalt, hevaluation, hbound]
    have hsteps : ch.noSteps = false := Channel.steps_of_open (.inr (.inr (.inl hstate))) hhalt
    have hvalidate : validate base.chans[c] (base.wide c) e.record = validate ch (p.wide c) r := by
      rw [hbase]
      exact validate_congr rfl rfl ..
    have hovertaken : base.withView c (base.overtaken s.clock c a e q) = p1 := by
      refine Part.withView_overtaken.trans (if_congr ?_ rfl rfl)
      rw [hbase]
    have closes : ∀ {p' : Part} {n : Nat}, base.Settles s.clock c (base.view c) n p' → n ≤ 32 →
        exec (.stepReadReturn w) s = .next (s.withPart (p'.closeStep s.clock s.part.marks)) :=
      fun hs hn => exec_stepReadReturn_close answers (Part.stepRead_behind hqueue hstale hsteps hs hn)
    have hdueNow : due → r.isDueNow s.tb := fun h => by
      obtain hone | ⟨-, hzero | ⟨htwo, hlateness⟩⟩ := h
      · exact StepRecord.isDueNow_of_chain (.inr hone)
      · exact StepRecord.isDueNow_of_chain (.inl hzero)
      · exact StepRecord.isDueNow_of_late htwo hlateness
    have hends : due → ((base.view c).rearmed .good).turn (base.context s.clock c)
        = some (((base.overtaken s.clock c a e q).rearmed .good).endActive (base.context s.clock c) status false) :=
      fun h => b.turn_ends (h.imp_right And.left)
    have hstatus : status ≠ .halted := Part.status_ne_halted (e := e)
    have hpool : p1.pool = (base.overtaken s.clock c a e q).pool := by
      rw [← hovertaken]
      rfl
    have hrearmed : ∀ armed : Armed, base.withView c ((base.view c).rearmed armed)
        = { p with chans := p.chans.set c { queued with armed := armed } } := fun armed => by
      simp only [Part.withView, Part.view, hbase, base, Vector.set_set]
      rfl
    refine ⟨fun hvalid hstart hcontinuous => ?_, fun code hcode hshared => ?_, fun code hcode hshared => ?_,
      fun hvalid h hshared hfree => ?_, fun hvalid h hshared => ?_, ?_⟩
    · refine exec_stepReadReturn answers ((Part.stepRead_behind hqueue hstale hsteps
        (b.good_waits (k := s.clock) (hvalidate.trans hvalid) hstart hcontinuous) (by omega)).trans ?_) rfl
      exact hrearmed .good
    · refine exec_stepReadReturn answers ((Part.stepRead_behind hqueue hstale hsteps
        (b.bad_removed (k := s.clock) (hvalidate.trans hcode) hshared) (by omega)).trans ?_) rfl
      have hslot : base.pool.slotForReport = .shared := if_pos hshared
      have hleft : arrived.afterAdmission = { queued.afterAdmission with
          state := if queued.active.isSome then .active else .idle, queue := [], armed := .none } := by
        have hqueued : queued.active = some a := hactive
        rw [hqueued, ← hstate, ← hqueue, ← harmed]
        rfl
      have hdry : queued.active.isNone = false := by
        have hqueued : queued.active = some a := hactive
        rw [hqueued]
        rfl
      rw [Part.removalStaged, Part.poolWith, hslot, hbase, hdry, hleft]
      simp only [base, Vector.set_set]
      rfl
    · refine exec_stepReadReturn answers ((Part.stepRead_behind hqueue hstale hsteps
        (b.bad_waits (k := s.clock) (hvalidate.trans hcode) hshared) (by omega)).trans ?_) rfl
      exact hrearmed (.removal .badStep code s.tb)
    · rw [hpool] at hshared hfree
      rw [← hovertaken]
      exact closes (b.good (hvalidate.trans hvalid)
        (b.overtaken.hands_over (hends h) Part.overtaken_frame.2 hstatus (hdueNow h) hshared hfree)) (by omega)
    · rw [hpool] at hshared
      rw [← hovertaken]
      exact closes (b.good (hvalidate.trans hvalid)
        (b.overtaken.holds (hends h) Part.overtaken_frame.2 hstatus (hdueNow h) hshared)) (by omega)
    · intro ended left
      have hended : ended = base.stepEnded c q s.tb a .superseded := rfl
      have hpoolEnded : ended.pool = ((base.view c).overtakenEnd c q s.tb a .superseded).pool := rfl
      have hview : (base.view c).Overtaken a e q := ⟨b.steps, b.active, b.queue, b.evaluation, b.bound, rfl⟩
      refine ⟨fun evaluation hvalid hcontinuous hwait => ?_, fun hvalid hcontinuous hstart hlate hstrict hfault => ?_⟩
      · rw [Part.stepEnded_stands hended]
        obtain ⟨hstart, hpos, hlt, rfl⟩ | ⟨hstart, source, hsource, rfl⟩ := hwait
        · exact closes (b.good (hvalidate.trans hvalid) (hview.waits_early
            (b.turn_ends_uncounted hcontinuous (.inl hstart)) rfl (by decide) hstart ⟨hpos, hlt⟩)) (by omega)
        · have hsame : r.source = source := by
            refine Fin.ext ?_
            rw [hsource]
            exact Nat.mod_eq_of_lt (hsource ▸ source.isLt)
          rw [← hsame]
          exact closes (b.good (hvalidate.trans hvalid) (hview.waits_onMark
            (b.turn_ends_uncounted hcontinuous (.inr hstart)) rfl (by decide) hstart)) (by omega)
      · intro value
        refine ⟨fun hroom => ?_, fun hshared hbusy => ?_⟩
        · have hleft := Part.stepEnded_withView (p := base) (c := c) (q := q) (u := base.view c) (e := a)
            (status := .superseded) (tb := s.tb)
          rw [Part.withView_view] at hleft
          have hremoved := Part.removalStaged_restated (p := base) (c := c) (q := q) (e := e) (rest := [])
            (v := ((base.view c).overtakenEnd c q s.tb a .superseded).parked) (slot := ended.pool.slotForReport)
            (time := s.tb) (status := .lateSkipped) (value := value) .idle
          rw [hended, hleft]
          refine (closes (b.good (hvalidate.trans hvalid) (hview.skipped (k := s.clock)
            (b.turn_ends_uncounted hcontinuous (.inl hstart)) rfl (by decide) ⟨hstart, hlate, hstrict⟩
            ((congrArg Channel.fetchFault hbase).trans hfault) hroom)) (by omega)).trans ?_
          exact congrArg (fun x : Part => Host.Outcome.next (s.withPart (x.closeStep s.clock s.part.marks))) hremoved.symm
        · rw [hpoolEnded] at hshared hbusy
          have hstands := Part.stepEnded_stands hended (state := .held) (armed := .removal .lateSkipped value s.tb)
            (evaluation := .none)
          have hleft : ended.chans[c] = (endedChannel base.chans[c]).afterAdmission := Vector.getElem_set_self ..
          have hkept : left.evaluation = base.chans[c].evaluation :=
            (congrArg (fun x : Channel => x.evaluation) hleft).trans rfl
          refine (closes (b.good (hvalidate.trans hvalid) (hview.skipped_waits (k := s.clock)
            (b.turn_ends_uncounted hcontinuous (.inl hstart)) rfl (by decide) ⟨hstart, hlate, hstrict⟩ hshared hbusy))
            (by omega)).trans ?_
          refine congrArg (fun x : Part => Host.Outcome.next (s.withPart (x.closeStep s.clock s.part.marks)))
            (hstands.symm.trans ?_)
          rw [← b.evaluation, ← hkept]

end Sys2Proof.Machine
end

section
/-! PROOF. AT_TIME and ON_MARK conditions that are met or time out (R8, R10, R12, R14, R78, R79, R81, R82). -/

namespace Sys2Proof.Machine

namespace Part
variable {p : Part} {k : Clock} {c : ChanId} {e : Step} {rest : List Step} {q : RingId}

/-- The view of a unit whose evaluation has ended with this armed outcome. -/
def judged (p : Part) (c : ChanId) (armed : Armed) : UnitView :=
  { p.view c with ch := { p.chans[c] with evaluation := .none, armed := armed } }

theorem satisfied_eq : (p.view c).satisfied (p.context k c) = (p.judged c (.due false false)).handOver (p.context k c) := rfl

theorem markTimeout_eq (hqueue : p.chans[c].queue = e :: rest) : (p.view c).markTimeout (p.context k c)
    = (p.judged c (.removal .markTimeout e.record.startTimeout.toNat k.tb)).handOver (p.context k c) := by
  have hview : (p.view c).ch.queue = e :: rest := hqueue
  rw [UnitView.markTimeout, hview]
  rfl

section Met
variable (steps : p.chans[c].noSteps = false) (hactive : p.chans[c].active = none)
  (hqueue : p.chans[c].queue = e :: rest)
include steps hactive hqueue

theorem atUnit_satisfied_starts (hlength : rest.length ≤ 3) (hfree : p.pool.reservedBusy c = false) (hruns : e.runsOn rest)
    (hbound : rest ≠ [] → p.chans[c].bound = some q) :
    p.atUnit k c UnitView.satisfied = p.stepStarts c q k.tb e false false rest := by
  have hstarts := settles_start (p := p) (k := k) (c := c) (q := q) (u := p.judged c (.due false false)) steps hqueue rfl
    hactive hfree hruns hbound
  have hsame := stepStarts_congr (p := p) (c := c) (q := q) (e := e) (rest := rest) (tb := k.tb) (late := false)
    (held := false) (u := p.view c) (ch := (p.judged c (.due false false)).ch) (lines := p.lines) rfl rfl
  rw [withView_view] at hsame
  rw [← hsame]
  exact atUnit_handOver satisfied_eq rfl hstarts (by omega)

theorem atUnit_satisfied_held (hbusy : p.pool.reservedBusy c = true) : p.atUnit k c UnitView.satisfied
    = { p with chans := p.chans.set c { p.chans[c] with
        state := .held, evaluation := .none, armed := .due false true } } :=
  atUnit_handOver satisfied_eq rfl
    (settles_held (u := p.judged c (.due false false)) steps hqueue rfl hactive rfl hbusy) (by omega)

end Met

/-- The part whose channel `c` waits for no condition. -/
abbrev awake (p : Part) (c : ChanId) : Part := { p with chans := p.chans.set c { p.chans[c] with evaluation := .none } }

/-- The view of a unit that waits for no condition. -/
abbrev awakeView (p : Part) (c : ChanId) : UnitView := { p.view c with ch := { p.chans[c] with evaluation := .none } }

section TimedOut
variable (steps : p.chans[c].noSteps = false) (hactive : p.chans[c].active = none)
  (hqueue : p.chans[c].queue = e :: rest)
include steps hactive hqueue

theorem atUnit_markTimeout_waits (hshared : p.pool.hasShared = false) (hbusy : p.pool.reservedBusy c = true) :
    p.atUnit k c UnitView.markTimeout = { p with chans := p.chans.set c { p.chans[c] with
      state := .held, evaluation := .none, armed := .removal .markTimeout e.record.startTimeout.toNat k.tb } } := by
  refine atUnit_handOver (n := 0) (markTimeout_eq hqueue) rfl (.stop ?_ (congrArg _ (UnitView.settle_stands
    (u := p.judged c (.removal .markTimeout e.record.startTimeout.toNat k.tb))
    (Channel.derivedState_held (ch := (p.judged c (.removal .markTimeout e.record.startTimeout.toNat k.tb)).ch)
      steps hactive hqueue rfl) rfl rfl))) (by omega)
  exact UnitView.turn_removal_waits (x := p.context k c) steps hqueue rfl
    ((UnitView.canStage_eq_false_iff (x := p.context k c) hactive).mpr ⟨hshared, hbusy⟩)

variable (hbound : p.chans[c].bound = some q) (hroom : p.pool.hasShared = true ∨ p.pool.reservedBusy c = false)
include hbound hroom

theorem atUnit_markTimeout_removes {p' : Part} {n : Nat} (hn : n ≤ 31)
    (hs : p.Settles k c ((p.awakeView c).removed c q p.pool.slotForReport k.tb e .markTimeout
      e.record.startTimeout.toNat rest) n p') : p.atUnit k c UnitView.markTimeout = p' := by
  refine atUnit_handOver (markTimeout_eq hqueue) rfl (.turn (UnitView.turn_removes
    (u := p.judged c (.removal .markTimeout e.record.startTimeout.toNat k.tb)) steps hqueue rfl hbound ?_) rfl hs) (by omega)
  exact (UnitView.canStage_iff (x := p.context k c)
    (u := p.judged c (.removal .markTimeout e.record.startTimeout.toNat k.tb)) hactive).mpr hroom

theorem atUnit_markTimeout_last (hlast : rest = []) (hfault : p.chans[c].fetchFault = false) :
    p.atUnit k c UnitView.markTimeout = (p.awake c).removalStaged c q p.pool.slotForReport k.tb e .markTimeout
      e.record.startTimeout.toNat rest := by
  subst hlast
  exact atUnit_markTimeout_removes (n := 0) steps hactive hqueue hbound hroom (by omega)
    (settles_removed_last (u := p.awakeView c) steps hactive hfault)

theorem atUnit_markTimeout_chain {e2 : Step} {behind : List Step} (hrest : rest = e2 :: behind) (hlength : behind.length ≤ 2)
    (hvalid : validate p.chans[c] (p.wide c) e2.record = none) (hstart : e2.record.start = 0 ∨ e2.record.start = 1)
    (hruns : e2.runsOn behind) : p.atUnit k c UnitView.markTimeout
      = ((p.awake c).removalStaged c q p.pool.slotForReport k.tb e .markTimeout e.record.startTimeout.toNat rest).chainProceeds
          c q k.tb e2 behind := by
  subst hrest
  exact atUnit_markTimeout_removes (n := 2 * behind.length + 3) steps hactive hqueue hbound hroom (by omega)
    (settles_removed_chain (u := p.awakeView c) steps hactive (.inl (by simp [view])) rfl
      ((validate_congr rfl rfl ..).trans hvalid) hstart hruns hbound)

end TimedOut

end Part

/-- Settles O44: a condition that is met, or times out. -/
theorem conditionsAreMetOrTimeOut : Obligations.ConditionsAreMetOrTimeOut := by
  intro s c e behind q p ch hstate hactive hqueue hroom hhalt hbound
  have hsteps : ch.noSteps = false := Channel.steps_of_open (.inr (.inl hstate)) hhalt
  have hlength : behind.length ≤ 3 := by
    simp only [Channel.window, hactive, hqueue, Option.toList_none, List.nil_append, List.length_cons] at hroom
    omega
  refine ⟨fun hmet hfree hruns => ?_, fun hmet hbusy => ?_, fun source hexpires hroom => ?_,
    fun source hexpires hshared hbusy => ?_⟩
  · exact State.onPart_unitEvent (Channel.atTimeDue_iff.2 hmet)
      (Part.atUnit_satisfied_starts hsteps hactive hqueue hlength hfree hruns fun _ => hbound)
  · exact State.onPart_unitEvent_quiet (Channel.atTimeDue_iff.2 hmet)
      (Part.atUnit_satisfied_held hsteps hactive hqueue hbusy) rfl
  · intro awake removed
    refine ⟨fun hlast hfault => ?_, fun e2 rest hbehind hvalid hstart hruns => ?_⟩
    · exact State.onPart_unitEvent_quiet (Channel.markTimeoutDue_iff.2 ⟨source, hexpires⟩)
        (Part.atUnit_markTimeout_last hsteps hactive hqueue hbound hroom hlast hfault) rfl
    · refine State.onPart_unitEvent (Channel.markTimeoutDue_iff.2 ⟨source, hexpires⟩)
        (Part.atUnit_markTimeout_chain hsteps hactive hqueue hbound hroom hbehind ?_ hvalid hstart hruns)
      rw [hbehind, List.length_cons] at hlength
      omega
  · exact State.onPart_unitEvent_quiet (Channel.markTimeoutDue_iff.2 ⟨source, hexpires⟩)
      (Part.atUnit_markTimeout_waits hsteps hactive hqueue hshared hbusy) rfl

end Sys2Proof.Machine
end

section
/-! PROOF. A mark that is new on the bus reaches the channel that waits on it (R12, R74, R75, R76, R80, R82). -/

namespace Sys2Proof.Machine

namespace Part
variable {p : Part} {k : Clock} {c d x : ChanId} {e : Step} {rest : List Step} {q : RingId} {before : Vector Bool 8}

theorem mem_allChans (c : ChanId) : c ∈ allChans := by decide +revert

theorem waitsForMark_iff : p.waitsForMark c x = true ↔ x ≠ c ∧ ∃ w, p.chans[x].evaluation = .onMark c w := by
  unfold waitsForMark
  rw [Bool.and_eq_true, bne_iff_ne, ne_comm]
  refine and_congr_right fun _ => ?_
  cases hevaluation : p.chans[x].evaluation with
  | none => simp
  | atTime t => simp
  | onMark m w => exact beq_iff_eq.trans ⟨fun h => ⟨w, h ▸ rfl⟩, fun ⟨_, h⟩ => (Evaluation.onMark.inj h).1⟩

/-- One mark is new on the bus: it reaches the other channels that wait on it. -/
theorem reached_mark (hmarks : p.marks = before.set c true) (hbefore : before[c] = false) :
    p.reached before = allChans.filter (p.waitsForMark c) := by
  refine List.filter_congr fun x _ => ?_
  rw [Bool.eq_iff_iff, List.any_eq_true]
  constructor
  · rintro ⟨s, -, hs⟩
    simp only [Bool.and_eq_true, Bool.not_eq_true', hmarks] at hs
    obtain ⟨⟨hnew, hold⟩, hwaits⟩ := hs
    by_cases hc : c = s
    · rw [hc]
      exact hwaits
    · have hval : c.val ≠ s.val := fun h => hc (Fin.ext h)
      simp only [Fin.getElem_fin, Vector.getElem_set_ne _ _ hval] at hnew hold
      exact absurd (hnew.symm.trans hold) (by decide)
  · intro hwaits
    refine ⟨c, mem_allChans c, ?_⟩
    simp [hmarks, hwaits, hbefore]

theorem filter_waitsForMark_of_none (h : ∀ x : ChanId, x ≠ c → ∀ w, p.chans[x].evaluation ≠ .onMark c w) :
    allChans.filter (p.waitsForMark c) = [] := by
  refine List.filter_eq_nil_iff.2 fun x _ hx => ?_
  obtain ⟨hne, w, hw⟩ := waitsForMark_iff.1 hx
  exact h x hne w hw

theorem filter_eq_singleton (d : ChanId) : allChans.filter (· == d) = [d] := by decide +revert

theorem filter_waitsForMark_of_one {w : Option Ticks} (hd : d ≠ c) (hwaits : p.chans[d].evaluation = .onMark c w)
    (h : ∀ x : ChanId, x ≠ d → x ≠ c → ∀ w, p.chans[x].evaluation ≠ .onMark c w) :
    allChans.filter (p.waitsForMark c) = [d] := by
  rw [← filter_eq_singleton d]
  refine List.filter_congr fun x _ => ?_
  rw [Bool.eq_iff_iff, waitsForMark_iff, beq_iff_eq]
  constructor
  · rintro ⟨hne, v, hv⟩
    by_contra hx
    exact h x hx hne v hv
  · rintro rfl
    exact ⟨hd, w, hwaits⟩

theorem deliver_nil (n : Nat) : deliver k n [] p = p := by
  cases n <;> rfl

/-- A mark that reaches one channel, whose step emits none. -/
theorem deliver_one {p' : Part} {n : Nat} (harrives : p.markArrives k d = p') (hmarks : p'.marks = p.marks) :
    deliver k (n + 1) [d] p = p' := by
  have hdeliver : deliver k (n + 1) [d] p
      = deliver k n ([d].erase d ++ (p.markArrives k d).reached p.marks) (p.markArrives k d) := rfl
  have hreached : p'.reached p.marks = [] := by
    rw [← hmarks]
    exact reached_self p'
  rw [hdeliver, harrives, hreached, List.erase_cons_head]
  exact deliver_nil n

theorem grant_evaluation (tb : Ticks) (x : ChanId) : (p.grant tb).chans[x].evaluation = p.chans[x].evaluation := by
  obtain h | ⟨-, h⟩ := p.grant_chans tb x <;> rw [h]

theorem armBehind_marks {tb : Ticks} (l : List Step) (p : Part) : (armBehind c q tb l p).marks = p.marks := by
  induction l generalizing p with
  | nil => rfl
  | cons e rest ih =>
    rw [armBehind]
    split
    · rfl
    · split
      · rw [ih]
      · rfl

theorem stepStarts_marks {tb : Ticks} {late held : Bool} (h : e.record.markStart = false) :
    (p.stepStarts c q tb e late held rest).marks = p.marks := by
  rw [stepStarts, armBehind_marks, h]
  rfl

/-- The condition of the one channel that waits on a new mark is satisfied. -/
theorem closeStep_mark {p' : Part} {w : Option Ticks} (hmarks : p.marks = before.set c true) (hbefore : before[c] = false)
    (hd : d ≠ c) (hwaits : (p.grant k.tb).chans[d].evaluation = .onMark c w)
    (halone : ∀ x : ChanId, x ≠ d → x ≠ c → ∀ w, p.chans[x].evaluation ≠ .onMark c w)
    (hsatisfied : (p.grant k.tb).atUnit k d UnitView.satisfied = p') (hkeeps : p'.marks = (p.grant k.tb).marks) :
    p.closeStep k before = p'.grant k.tb := by
  have hreached : (p.grant k.tb).reached before = [d] := by
    rw [reached_mark (p := p.grant k.tb) ((p.grant_marks k.tb).trans hmarks) hbefore]
    exact filter_waitsForMark_of_one hd hwaits fun x hx hxc v => by
      rw [grant_evaluation]
      exact halone x hx hxc v
  have hawaits : (p.grant k.tb).chans[d].awaitsMark = true := by
    rw [Channel.awaitsMark, hwaits]
  have hclose : p.closeStep k before = deliver k arrivalLimit ((p.grant k.tb).reached before) (p.grant k.tb) := rfl
  rw [hclose, hreached]
  refine deliver_one (n := 63) ?_ ((p'.grant_marks k.tb).trans hkeeps)
  rw [markArrives, if_pos hawaits, hsatisfied]

end Part

/-- Settles O45: one channel waits on a mark that is new on the bus, or none does. -/
theorem markStartsTheWaitingStep : Obligations.MarkStartsTheWaitingStep := by
  intro p k before c hmarks hbefore
  refine ⟨?_, fun hnone => ?_⟩
  · intro d e behind q expiry g ch hd hstate hwaits halone hactive hqueue hroom hhalt
    have hsteps : ch.noSteps = false := Channel.steps_of_open (.inr (.inl hstate)) hhalt
    have hlength : behind.length ≤ 3 := by
      simp only [Channel.window, hactive, hqueue, Option.toList_none, List.nil_append, List.length_cons] at hroom
      omega
    refine ⟨fun hquiet hfree hruns hbound => ?_, fun hbusy => ?_⟩
    · exact Part.closeStep_mark hmarks hbefore hd hwaits halone (Part.atUnit_satisfied_starts (p := g) hsteps hactive hqueue
        hlength (by rw [Part.grant_pool]; exact hfree) hruns hbound) (Part.stepStarts_marks hquiet)
    · exact Part.closeStep_mark hmarks hbefore hd hwaits halone (Part.atUnit_satisfied_held (p := g) hsteps hactive hqueue
        (by rw [Part.grant_pool]; exact hbusy)) rfl
  · have hreached : (p.grant k.tb).reached before = [] := by
      rw [Part.reached_mark (p := p.grant k.tb) ((p.grant_marks k.tb).trans hmarks) hbefore]
      exact Part.filter_waitsForMark_of_none fun x hx w => by
        rw [Part.grant_evaluation]
        exact hnone x hx w
    have hclose : p.closeStep k before = Part.deliver k arrivalLimit ((p.grant k.tb).reached before) (p.grant k.tb) := rfl
    rw [hclose, hreached]
    exact Part.deliver_nil _

end Sys2Proof.Machine
end

section
/-! PROOF. The deadline of a command that waits on a channel (R141, R148, R149). -/

namespace Sys2Proof.Machine

namespace Part
variable {p : Part} {k : Clock} {c : ChanId} {e : Step} {h : HaltRequest} {q : RingId}

/-- The deadline timer stops. -/
abbrev noDeadline (p : Part) : Part := { p with admin := { p.admin with deadline := none } }

theorem deadlineExpiry_eq (hunit : p.admin.unit = .waiting) (hdeadline : p.admin.deadline = some k.tb)
    (hwaits : p.admin.waitingOn = .channel c) : p.deadlineExpiry k = (p.deadlineAt k c).closeStep k p.marks := by
  rw [deadlineExpiry, if_pos (Admin.deadlineDue_iff.2 ⟨hunit, hdeadline⟩), hwaits]

/-- The active step is forced to its HALTED end (R149). -/
theorem deadlineAt_forces (hunit : p.admin.unit = .waiting) (hwaits : p.admin.waitingOn = .channel c)
    (halting : p.chans[c].Halting e h q) : p.deadlineAt k c = Part.complete
      { p.noDeadline with
        chans := p.chans.set c (haltedChannel p.chans[c] h.close).afterAdmission
        lines := linesAfterHalt p.lines c p.chans[c] e.record h.close
        pool := p.poolWith c q p.pool.slotForReport k.tb (haltedBody p.chans[c] e h.flushed h.firstTag true)
        marks := if e.record.markEnd then p.marks.set c true else p.marks } .ok
      ⟨1, BitVec.ofNat 32 h.flushed, BitVec.ofNat 32 p.chans[c].fetchIndex, 0⟩ := by
  have hhalted := atUnit_halted (p := p.noDeadline) (k := k) (c := c) (u := p.noDeadline.view c) (forced := true)
    (f := fun x u => u.endHalted x true) rfl halting rfl
  rw [withView_view] at hhalted
  have hsome : p.chans[c].halt.isSome = true := by
    rw [halting.halt]
    rfl
  rw [deadlineAt, if_pos hsome]
  exact hhalted.trans (if_pos ⟨hunit, hwaits⟩)

/-- A FLUSH that waits for a slot stays pending (R148, R149). -/
theorem deadlineAt_flush {d : Draft} {n : Nat} {tag : BitVec 16} {sqHead : Nat} {fetchError : Bool}
    (hhalt : p.chans[c].halt = none) (hpending : p.chans[c].pendingReport = some d)
    (hbody : d.body = .flush n tag sqHead fetchError) : p.deadlineAt k c
      = p.noDeadline.complete .deadline ⟨2, BitVec.ofNat 32 n, BitVec.ofNat 32 sqHead, 0⟩ := by
  have hnone : ¬p.chans[c].halt.isSome = true := by
    rw [hhalt]
    decide
  have hwords : p.chans[c].pendingWords = ⟨2, BitVec.ofNat 32 n, BitVec.ofNat 32 sqHead, 0⟩ := by
    simp only [Channel.pendingWords, hpending, Option.bind_some, Draft.haltReport, hbody]
    rfl
  rw [deadlineAt, if_neg hnone, hwords]

end Part

/-- Settles O46: the step is forced to its end, or the FLUSH stays pending. -/
theorem deadlineEndsTheWait : Obligations.DeadlineEndsTheWait := by
  intro s c p ch hunit hdeadline hwaits
  have hexpires := Part.deadlineExpiry_eq (k := s.clock) hunit hdeadline hwaits
  refine ⟨fun h e q law hhalt hactive hbound => ?_, fun d n tag sqHead fetchError hhalt hpending hbody => ?_⟩
  · rw [Part.deadlineAt_forces hunit hwaits (Channel.halting_of_law law hhalt hactive hbound)] at hexpires
    exact congrArg (fun x : Part => Host.Outcome.next (s.withPart x)) hexpires
  · rw [Part.deadlineAt_flush hhalt hpending hbody, Part.closeStep_quiet (Part.complete_marks ..)] at hexpires
    exact congrArg (fun x : Part => Host.Outcome.next (s.withPart x)) hexpires

end Sys2Proof.Machine
end

section
/-! PROOF. CH_HALT and CH_CLOSE of an open channel pass a halt request to it (R20, R141, R148 to R150). -/

namespace Sys2Proof.Machine

/-! ### The request reaches the channel (R148, R149) -/

/-- The channel takes steps, or has one (R3). -/
abbrev Channel.isOpen (ch : Channel) : Prop := ch.state = .idle ∨ ch.state = .waiting ∨ ch.state = .active ∨ ch.state = .held

section Passed
variable {s : State} {p q : Part} {k : Clock} {r : CommandRecord} {c : ChanId} {close boundary : Bool}

theorem Part.chHalt_open (hc : r.byte 4 = c.val) (hmode : modeOf r = some boundary) (hopen : p.chans[c].isOpen) :
    p.chHalt k r = p.passHalt k c false boundary (r.word 8) := by
  simp only [chHalt, CommandRecord_channel_val hc, hmode]
  rcases hopen with h | h | h | h <;> simp only [h]

theorem Part.chClose_open (hc : r.byte 4 = c.val) (hmode : modeOf r = some boundary) (hopen : p.chans[c].isOpen) :
    p.chClose k r = p.passHalt k c true boundary (r.word 8) := by
  simp only [chClose, CommandRecord_channel_val hc, hmode]
  rcases hopen with h | h | h | h <;> simp only [h]

theorem State.onPart_command_close {n : Nat} {body : Clock → Part → Part} (h : s.part.port.answers .adminRead)
    (hz : r.zerosHold n = true) (hq : body s.clock (s.taken (BitVec.ofNat 8 n) r) = q) :
    (Host.Outcome.next (s.onPart fun k p => p.command k n r (body k)) : Host.Outcome State Fault Refusal)
      = .next (s.withPart (q.closeStep s.clock s.part.marks)) := by
  unfold State.onPart
  dsimp only
  rw [Part.command_live h hz, hq]
  rfl

/-- CH_HALT or CH_CLOSE of an open channel. -/
theorem exec_halt (h : s.part.port.answers .adminRead) (hz : r.zerosHold 7 = true) (hc : r.byte 4 = c.val)
    (hmode : modeOf r = some boundary) (hopen : (s.taken (if close then 8 else 7) r).chans[c].isOpen)
    (hq : (s.taken (if close then 8 else 7) r).passHalt s.clock c close boundary (r.word 8) = q) :
    exec (if close then .chClose r else .chHalt r) s = .next (s.withPart (q.closeStep s.clock s.part.marks)) := by
  cases close with
  | false =>
    exact State.onPart_command_close (body := fun k p => p.chHalt k r) h hz ((Part.chHalt_open hc hmode hopen).trans hq)
  | true =>
    have hz8 : r.zerosHold 8 = true := hz
    exact State.onPart_command_close (body := fun k p => p.chClose k r) h hz8 ((Part.chClose_open hc hmode hopen).trans hq)

theorem exec_halt_quiet (h : s.part.port.answers .adminRead) (hz : r.zerosHold 7 = true) (hc : r.byte 4 = c.val)
    (hmode : modeOf r = some boundary) (hopen : (s.taken (if close then 8 else 7) r).chans[c].isOpen)
    (hq : (s.taken (if close then 8 else 7) r).passHalt s.clock c close boundary (r.word 8) = q)
    (hm : q.marks = s.part.marks) : exec (if close then .chClose r else .chHalt r) s = .next (s.granted q) := by
  rw [exec_halt h hz hc hmode hopen hq, Part.closeStep_quiet hm]
  rfl

end Passed

/-! ### The channel takes the request (R20) -/

/-- The view of a unit that takes a halt request: a read in flight is stale. -/
def UnitView.asked (u : UnitView) : UnitView :=
  { u with ch := { u.ch with stale := u.ch.stale || u.ch.fetchInFlight } }

/-- The view of a unit with its active step and this request, what stood behind the step flushed. -/
def UnitView.requested (u : UnitView) (h : HaltRequest) : UnitView :=
  { u with ch := { u.ch with halt := some h, queue := [], armed := .none, evaluation := .none } }

namespace UnitView
variable {x : UnitContext} {u : UnitView} {e : Step} {close boundary deadline : Bool}

theorem takeHalt_eq : u.takeHalt x close boundary deadline = match u.ch.state with
    | .closed | .subordinate => u.asked
    | .stopped => if close then u.asked.closeNow x else u.asked
    | .idle | .waiting | .active | .held =>
      match u.ch.active with
      | some e => u.asked.haltActive x e close boundary deadline
      | none => u.asked.flushIdle x close := rfl

theorem takeHalt_active (hstate : u.ch.state = .active) (hactive : u.ch.active = some e) :
    u.takeHalt x close boundary deadline = u.asked.haltActive x e close boundary deadline := by
  simp only [takeHalt_eq, hstate, hactive]

theorem takeHalt_nothing (hstate : u.ch.state = .idle ∨ u.ch.state = .waiting ∨ u.ch.state = .held)
    (hactive : u.ch.active = none) : u.takeHalt x close boundary deadline = u.asked.flushIdle x close := by
  rcases hstate with h | h | h <;> simp only [takeHalt_eq, h, hactive]

theorem haltActive_runs_on (hboundary : (u.ch.mergedRequest close boundary deadline).boundary = true)
    (hkind : e.record.isKind .position = false) : u.haltActive x e close boundary deadline
      = u.requested (u.ch.mergedRequest close boundary deadline) := by
  simp only [haltActive, hboundary, hkind]
  rfl

theorem haltActive_ends (h : (u.ch.mergedRequest close boundary deadline).boundary = false
      ∨ e.record.isKind .position = true) : u.haltActive x e close boundary deadline
      = (u.requested (u.ch.mergedRequest close boundary deadline)).endHalted x false := by
  have hends : (!(u.ch.mergedRequest close boundary deadline).boundary || e.record.isKind .position) = true := by
    rcases h with h | h <;> simp [h]
  simp only [haltActive, hends]
  rfl

end UnitView

namespace Channel
variable {ch : Channel} {close boundary deadline : Bool} {held : HaltRequest}

theorem mergedRequest_none (h : ch.halt = none) : ch.mergedRequest close boundary deadline
    = { close := close, boundary := boundary, deadline := deadline, flushed := ch.queue.length
        firstTag := firstTagOf ch.queue } := by
  simp only [mergedRequest, h]

theorem mergedRequest_some (h : ch.halt = some held) : ch.mergedRequest close boundary deadline
    = { close := held.close || close, boundary := held.boundary && boundary, deadline := deadline
        flushed := held.flushed, firstTag := held.firstTag } := by
  simp only [mergedRequest, h]

theorem mergedRequest_boundary (h : ∀ held ∈ ch.halt, held.boundary = true) :
    (ch.mergedRequest close true deadline).boundary = true := by
  cases hhalt : ch.halt with
  | none => rw [mergedRequest_none hhalt]
  | some held => rw [mergedRequest_some hhalt, h held hhalt]; rfl

end Channel

theorem bne_zero_eq_decide (w : Word32) : (w != 0) = decide (w ≠ 0) := by
  rw [Bool.eq_iff_iff]
  simp

/-- Settles O25: the step runs on with the request, the new one or the merger. -/
theorem boundaryHaltWaitsForTheStep : Obligations.BoundaryHaltWaitsForTheStep := by
  intro s r c e close h hz hc hmode p ch hstate hactive hkind hboundary
  have hmodeOf : modeOf r = some true := by
    rw [modeOf, hmode]
    rfl
  have hmerged : ((p.view c).asked.ch.mergedRequest close true (r.word 8 != 0)).boundary = true :=
    Channel.mergedRequest_boundary hboundary
  refine exec_halt_quiet h hz hc hmodeOf (.inr (.inr (.inl hstate))) (Eq.trans (Part.atUnit_runs_on (e := e)
    ((UnitView.takeHalt_active hstate hactive).trans (UnitView.haltActive_runs_on hmerged hkind)) hstate hactive rfl rfl) ?_) rfl
  refine congrArg (fun request : HaltRequest => { p with
    chans := p.chans.set c { ch with
      queue := [], armed := .none, evaluation := .none, stale := ch.stale || ch.fetchInFlight, halt := some request }
    admin := { p.admin with
      unit := .waiting, waitingOn := .channel c
      deadline := if r.word 8 = 0 then none else some (s.tb + (r.word 8).setWidth 48) } }) ?_
  rw [bne_zero_eq_decide]
  cases hhalt : ch.halt with
  | none => exact Channel.mergedRequest_none (ch := (p.view c).asked.ch) hhalt
  | some held =>
    refine (Channel.mergedRequest_some (ch := (p.view c).asked.ch) hhalt).trans ?_
    rw [hboundary held hhalt]
    rfl

end Sys2Proof.Machine
end

section
/-! PROOF. CH_HALT and CH_CLOSE that end the active step at once (R15, R16, R20 to R22, R67, R148, R150, R151). -/

namespace Sys2Proof.Machine

namespace Part
variable {p : Part} {k : Clock} {c : ChanId} {e : Step} {h : HaltRequest} {q : RingId} {close boundary : Bool}
  {deadline : Word32}

/-- A command that completes at the event at which it would wait has not waited. -/
theorem complete_waitOnChannel {cmd : Command} (hcurrent : p.admin.current = some cmd) (status : AdminStatus)
    (results : Results) : (p.waitOnChannel k c deadline).complete status results = p.complete status results := by
  have hwaiting : (p.waitOnChannel k c deadline).admin.current = some cmd := hcurrent
  rw [complete_current hwaiting, complete_current hcurrent]
  rfl

/-- The part once channel `c` has ended its step HALTED under this request, which it took at this event. -/
def haltedAtOnce (p : Part) (c : ChanId) (q : RingId) (tb : Ticks) (e : Step) (h : HaltRequest) : Part :=
  { p with
    chans := p.chans.set c
      { (haltedChannel p.chans[c] h.close).afterAdmission with stale := p.chans[c].stale || p.chans[c].fetchInFlight }
    lines := linesAfterHalt p.lines c p.chans[c] e.record h.close
    pool := p.poolWith c q p.pool.slotForReport tb (haltedBody p.chans[c] e h.flushed h.firstTag false)
    marks := if e.record.markEnd then p.marks.set c true else p.marks }

theorem haltedChannel_requested : (haltedChannel ((p.view c).asked.requested h).ch h.close).afterAdmission
    = { (haltedChannel p.chans[c] h.close).afterAdmission with
        stale := p.chans[c].stale || p.chans[c].fetchInFlight } := by
  unfold haltedChannel
  cases h.close <;> rfl

theorem passHalt_ends {cmd : Command} (hcurrent : p.admin.current = some cmd) (hstate : p.chans[c].state = .active)
    (hactive : p.chans[c].active = some e) (hbound : p.chans[c].bound = some q)
    (hrequest : p.chans[c].mergedRequest close boundary (deadline != 0) = h)
    (hends : h.boundary = false ∨ e.record.isKind .position = true) :
    p.passHalt k c close boundary deadline = (p.haltedAtOnce c q k.tb e h).complete .ok
      ⟨1, BitVec.ofNat 32 h.flushed, BitVec.ofNat 32 p.chans[c].fetchIndex, 0⟩ := by
  have hasked : (p.view c).asked.ch.mergedRequest close boundary (deadline != 0) = h := hrequest
  have hends' : UnitView.takeHalt ((p.waitOnChannel k c deadline).context k c) close boundary (deadline != 0)
        ((p.waitOnChannel k c deadline).view c)
      = ((p.view c).asked.requested h).endHalted ((p.waitOnChannel k c deadline).context k c) false := by
    rw [← hasked] at hends
    refine (UnitView.takeHalt_active hstate hactive).trans ((UnitView.haltActive_ends hends).trans ?_)
    rw [← hasked]
  have hhalted := atUnit_halted (p := p.waitOnChannel k c deadline) (k := k) (c := c)
    (f := fun x u => u.takeHalt x close boundary (deadline != 0)) hends'
    (h := h) (q := q) (e := e) ⟨rfl, hactive, hbound, rfl, rfl, rfl⟩ rfl
  refine hhalted.trans ?_
  rw [← complete_waitOnChannel (k := k) (c := c) (deadline := deadline) (p := p.haltedAtOnce c q k.tb e h) hcurrent]
  refine (if_pos ⟨rfl, rfl⟩).trans ?_
  rw [withView_getElem, poolWith_withView, haltedChannel_requested]
  simp only [withView, Vector.set_set]
  rfl

end Part

theorem Channel.mergedRequest_immediate {ch : Channel} {close deadline : Bool} :
    (ch.mergedRequest close false deadline).boundary = false := by
  unfold mergedRequest
  cases ch.halt with
  | none => rfl
  | some held => exact Bool.and_false _

/-- Settles O26: the step ends HALTED under the request, the new one or the merger. -/
theorem immediateHaltEndsTheStep : Obligations.ImmediateHaltEndsTheStep := by
  intro s r c e q close h hz hc hmode p ch shut n tag hstate hactive hbound
  obtain ⟨boundary, hmodeOf, hends⟩ : ∃ boundary, modeOf r = some boundary
      ∧ ((ch.mergedRequest close boundary (r.word 8 != 0)).boundary = false ∨ e.record.isKind .position = true) := by
    rcases hmode with hmode | ⟨hmode, hkind⟩
    · refine ⟨false, ?_, .inl Channel.mergedRequest_immediate⟩
      rw [modeOf, hmode]
      rfl
    · refine ⟨true, ?_, .inr hkind⟩
      rw [modeOf, hmode]
      rfl
  obtain ⟨index, hcurrent⟩ := State.taken_current s (if close then 8 else 7) r
  have hends' := Part.passHalt_ends (k := s.clock) hcurrent hstate hactive hbound rfl hends
  obtain ⟨hshut, hcount, htag⟩ : (ch.mergedRequest close boundary (r.word 8 != 0)).close = shut
      ∧ (ch.mergedRequest close boundary (r.word 8 != 0)).flushed = n
      ∧ (ch.mergedRequest close boundary (r.word 8 != 0)).firstTag = tag := by
    simp only [shut, n, tag]
    cases hhalt : ch.halt with
    | none =>
      rw [Channel.mergedRequest_none hhalt]
      refine ⟨(Bool.or_false close).symm, rfl, ?_⟩
      cases ch.queue <;> rfl
    | some held =>
      rw [Channel.mergedRequest_some hhalt]
      exact ⟨Bool.or_comm .., rfl, rfl⟩
  rw [Part.haltedAtOnce, hshut, hcount, htag] at hends'
  exact exec_halt h hz hc hmodeOf (.inr (.inr (.inl hstate))) hends'

end Sys2Proof.Machine
end

section
/-! PROOF. CH_HALT and CH_CLOSE of a channel with nothing active (R20, R22, R103, R148, R149, R151). -/

namespace Sys2Proof.Machine

namespace UnitView
variable {x : UnitContext} {u : UnitView} {q : RingId} {close : Bool}

/-- The FLUSH that a channel with nothing active composes (R20, R103). -/
abbrev flushBody (u : UnitView) : EntryBody :=
  .flush u.ch.queue.length (firstTagOf u.ch.queue) u.ch.fetchIndex u.ch.fetchFault

/-- The view with an empty window. -/
abbrev emptied (u : UnitView) : UnitView :=
  { u with ch := { u.ch with queue := [], armed := .none, evaluation := .none } }

/-- The view with an empty window, and its FLUSH admitted into a slot. -/
abbrev flushStaged (u : UnitView) (c : ChanId) (q : RingId) (tb : Ticks) : UnitView :=
  { u.emptied with
    ch := u.emptied.ch.afterAdmission
    pool := u.pool.append q
      { slot := u.pool.slotForReport
        entry := { draft := { channel := c, time := tb, body := u.flushBody }, seq := u.ch.seq, missed := u.ch.missed } }
    told := some { isFlush := true, flushed := u.ch.queue.length, sqHead := u.ch.fetchIndex } }

theorem flushIdle_eq : u.flushIdle x close = stopNow x close (if u.emptied.canStage x
    then { u.emptied.stage (x.draft u.flushBody) with told := (x.draft u.flushBody).haltReport }
    else { u.emptied with ch := { u.emptied.ch with pendingReport := some (x.draft u.flushBody) } }) := rfl

theorem flushIdle_room (hactive : u.ch.active = none) (hbound : u.ch.bound = some q)
    (hroom : u.pool.hasShared = true ∨ u.pool.reservedBusy x.id = false) :
    u.flushIdle x close = (u.flushStaged x.id q x.clock.tb).stopNow x close := by
  have hstage : u.emptied.canStage x = true := (canStage_iff (u := u.emptied) hactive).mpr hroom
  rw [flushIdle_eq, if_pos hstage, stage_bound (u := u.emptied) hbound]
  rfl

theorem flushIdle_full (hactive : u.ch.active = none) (hshared : u.pool.hasShared = false)
    (hbusy : u.pool.reservedBusy x.id = true) : u.flushIdle x close
      = stopNow x close { u.emptied with ch := { u.emptied.ch with
          pendingReport := some { channel := x.id, time := x.clock.tb, body := u.flushBody } } } := by
  have hstage : ¬u.emptied.canStage x = true := by
    rw [(canStage_eq_false_iff (u := u.emptied) hactive).mpr ⟨hshared, hbusy⟩]
    decide
  rw [flushIdle_eq, if_neg hstage]
  rfl

theorem settle_stopNow (hending : u.ending ≠ some true) : (u.stopNow x close).settle = u.stopNow x close := by
  cases close with
  | false => exact (settle_of_not_park (u := u.stopNow x false) hending).trans rfl
  | true => exact (settle_of_not_park (u := u.stopNow x true) hending).trans rfl

end UnitView

namespace Part
variable {p : Part} {k : Clock} {c : ChanId} {q : RingId} {close boundary : Bool} {deadline : Word32}

/-- The channel with an empty window and no request. -/
abbrev emptiedChannel (p : Part) (c : ChanId) : Channel := { p.chans[c] with
  state := .stopped, queue := [], armed := .none, evaluation := .none, halt := none
  stale := p.chans[c].stale || p.chans[c].fetchInFlight }

/-- The channel `ch` as a CLOSE leaves it (R22). -/
def closedChannel (ch : Channel) : Channel :=
  { ch with
    state := .closed, cls := none, bLine := none, aLine := none
    bound := if ch.pendingReport.isSome then ch.bound else none }

/-- The part whose channel `c` has nothing left, and is closed where the request is CLOSE (R22, R89). -/
def shut (p : Part) (c : ChanId) (close : Bool) (ch : Channel) (pool : Pool) : Part :=
  { p with
    chans := p.chans.set c (if close then closedChannel ch else ch)
    lines := if close then
        updateLine (updateLine p.lines p.chans[c].bLine (LineEntry.release c)) p.chans[c].aLine (LineEntry.release c)
      else p.lines
    pool := pool }

theorem passHalt_stops {u : UnitView} (htakes : UnitView.takeHalt (p.context k c) close boundary (deadline != 0) (p.view c)
      = u.stopNow (p.context k c) close) (hending : u.ending = none) : p.passHalt k c close boundary deadline
    = ((p.waitOnChannel k c deadline).withView c (u.stopNow (p.context k c) close)).hearHalt c
        (u.stopNow (p.context k c) close).told := by
  have hsettles := congrArg UnitView.settle htakes
  rw [UnitView.settle_stopNow (by simp [hending])] at hsettles
  have hpass : p.passHalt k c close boundary deadline
      = ((p.waitOnChannel k c deadline).withView c
          (UnitView.takeHalt (p.context k c) close boundary (deadline != 0) (p.view c)).settle).hearHalt c
          (UnitView.takeHalt (p.context k c) close boundary (deadline != 0) (p.view c)).settle.told := rfl
  rw [hpass, hsettles]

section Nothing
variable (hopen : p.chans[c].state = .idle ∨ p.chans[c].state = .waiting ∨ p.chans[c].state = .held)
  (hactive : p.chans[c].active = none)
include hopen hactive

theorem passHalt_flushes {cmd : Command} (hcurrent : p.admin.current = some cmd) (hbound : p.chans[c].bound = some q)
    (hroom : p.pool.hasShared = true ∨ p.pool.reservedBusy c = false) : p.passHalt k c close boundary deadline
      = (p.shut c close (p.emptiedChannel c).afterAdmission (p.poolWith c q p.pool.slotForReport k.tb
          (p.view c).flushBody)).complete .ok
        ⟨2, BitVec.ofNat 32 p.chans[c].queue.length, BitVec.ofNat 32 p.chans[c].fetchIndex, 0⟩ := by
  have htakes : UnitView.takeHalt (p.context k c) close boundary (deadline != 0) (p.view c)
      = ((p.view c).asked.flushStaged c q k.tb).stopNow (p.context k c) close :=
    (UnitView.takeHalt_nothing hopen hactive).trans
      (UnitView.flushIdle_room (u := (p.view c).asked) (x := p.context k c) hactive hbound hroom)
  have hpart : (p.waitOnChannel k c deadline).withView c
        (((p.view c).asked.flushStaged c q k.tb).stopNow (p.context k c) close)
      = (p.shut c close (p.emptiedChannel c).afterAdmission (p.poolWith c q p.pool.slotForReport k.tb
          (p.view c).flushBody)).waitOnChannel k c deadline := by
    cases close <;> rfl
  have htold : (((p.view c).asked.flushStaged c q k.tb).stopNow (p.context k c) close).told
      = some { isFlush := true, flushed := p.chans[c].queue.length, sqHead := p.chans[c].fetchIndex } := by
    cases close <;> rfl
  have hwaits : ∀ p' : Part, (p'.waitOnChannel k c deadline).waitsOnChannel c = true := fun p' => by
    simp [waitsOnChannel, waitOnChannel]
  rw [passHalt_stops htakes rfl, hpart, htold]
  exact (if_pos (hwaits _)).trans (complete_waitOnChannel (p := p.shut c close _ _) hcurrent ..)

theorem passHalt_waits (hshared : p.pool.hasShared = false) (hbusy : p.pool.reservedBusy c = true) :
    p.passHalt k c close boundary deadline
      = (p.shut c close { p.emptiedChannel c with
          pendingReport := some { channel := c, time := k.tb, body := (p.view c).flushBody } } p.pool).waitOnChannel k c
            deadline := by
  have htakes : UnitView.takeHalt (p.context k c) close boundary (deadline != 0) (p.view c)
      = UnitView.stopNow (p.context k c) close { (p.view c).asked.emptied with ch := { (p.view c).asked.emptied.ch with
          pendingReport := some { channel := c, time := k.tb, body := (p.view c).flushBody } } } :=
    (UnitView.takeHalt_nothing hopen hactive).trans
      (UnitView.flushIdle_full (u := (p.view c).asked) (x := p.context k c) hactive hshared hbusy)
  rw [passHalt_stops htakes rfl]
  cases close <;> rfl

end Nothing


end Part

/-- Settles O24: the FLUSH is admitted, or is the pending report. -/
theorem haltWithNothingActiveFlushes : Obligations.HaltWithNothingActiveFlushes := by
  intro s r c q close h hz hc hmode p ch n tag body halted left lines hstate hactive hbound
  obtain ⟨boundary, hmodeOf⟩ := exists_modeOf hmode
  have hopen : ch.isOpen := by
    rcases hstate with h | h | h <;> simp [Channel.isOpen, h]
  have htag : firstTagOf ch.queue = tag := by
    simp only [tag]
    cases ch.queue <;> rfl
  have hbody : (p.view c).flushBody = body := congrArg (fun t => EntryBody.flush n t ch.fetchIndex ch.fetchFault) htag
  obtain ⟨index, hcurrent⟩ := State.taken_current s (if close then 8 else 7) r
  refine ⟨fun hroom => ?_, fun hshared hbusy => ?_⟩
  · have hflushes := Part.passHalt_flushes (k := s.clock) (close := close) (boundary := boundary) (deadline := r.word 8)
      hstate hactive hcurrent hbound hroom
    rw [hbody] at hflushes
    exact exec_halt_quiet h hz hc hmodeOf hopen hflushes (Part.complete_marks ..)
  · have hwaits := Part.passHalt_waits (k := s.clock) (close := close) (boundary := boundary) (deadline := r.word 8)
      hstate hactive hshared hbusy
    rw [hbody] at hwaits
    exact exec_halt_quiet h hz hc hmodeOf hopen hwaits rfl

end Sys2Proof.Machine
end

section
/-! PROOF. An entry that was written whole, and the offers that its freed slot goes to (R23, R108, R109, R114 to R116, R125). -/

namespace Sys2Proof.Machine

namespace Part
variable {p p' : Part} {k : Clock} {c : ChanId} {q q2 : RingId} {part : EntryPart} {st : Staged} {rest : List Staged}

/-! ### The write (R114, R116, R125) -/

/-- The part after ring `q` has written the entry at the head of its list whole, with the slot freed (R114, R125). -/
abbrev written (p : Part) (tb : Ticks) (q : RingId) (part : EntryPart) (st : Staged) (rest : List Staged) : Part :=
  { p with
    rings := p.rings.set q
      (if part = .stats then { p.rings[q].advance with halfWritten := false } else p.rings[q].advance)
    pool := { p.pool with lists := p.pool.lists.set q rest }
    notices := p.notices.set q (p.notices[q].countEntry tb st.entry.isUrgent) }

theorem writeDone_whole (hpart : part = .single ∨ part = .stats) (hlist : p.pool.lists[q] = st :: rest) :
    p.writeDone k q part = match st.slot with
      | .shared => (p.written k.tb q part st rest).sharedFreed k
      | .reserved => (p.written k.tb q part st rest).atUnit k st.entry.draft.channel UnitView.offerAgain := by
  have hfree : ∀ p' : Part, p'.pool.lists[q] = st :: rest → p'.freeHead k q = match st.slot with
      | .shared => ({ p' with pool := { p'.pool with lists := p'.pool.lists.set q rest } } : Part).sharedFreed k
      | .reserved => ({ p' with pool := { p'.pool with lists := p'.pool.lists.set q rest } } : Part).atUnit k
          st.entry.draft.channel UnitView.offerAgain := fun p' h => by
    rw [freeHead, h, Pool.dropHead, h]
    rfl
  have hwhole : ∀ r : Ring, (p.setRing q r).entryWhole k q
      = ((p.setRing q r).report (noticeOf q) k.tb st.entry.isUrgent).freeHead k q := fun r => by
    have hring : (p.setRing q r).pool.lists[q] = st :: rest := hlist
    rw [entryWhole, hring]
  rcases hpart with rfl | rfl
  · exact (hwhole _).trans (hfree _ hlist)
  · exact (hwhole _).trans (hfree _ hlist)

theorem writeDone_shared (hpart : part = .single ∨ part = .stats) (hlist : p.pool.lists[q] = st :: rest)
    (hslot : st.slot = .shared) : p.writeDone k q part = (p.written k.tb q part st rest).sharedFreed k := by
  rw [writeDone_whole hpart hlist, hslot]

theorem writeDone_reserved (hpart : part = .single ∨ part = .stats) (hlist : p.pool.lists[q] = st :: rest)
    (hslot : st.isReservedOf c = true) :
    p.writeDone k q part = (p.written k.tb q part st rest).atUnit k c UnitView.offerAgain := by
  obtain ⟨hreserved, rfl⟩ : st.slot = .reserved ∧ st.entry.draft.channel = c := by
    simpa [Staged.isReservedOf] using hslot
  rw [writeDone_whole hpart hlist, hreserved]

/-! ### The channel that a freed shared slot goes to (R108) -/

theorem sharedFreed_none (h : ∀ c : ChanId, p.chans[c].hasOffer = false) : p.sharedFreed k = p := by
  have hfind : (chansAfter p.pool.rotation).find? (fun c => p.chans[c].hasOffer) = none :=
    List.find?_eq_none.2 fun c _ => by
      rw [h c]
      decide
  rw [sharedFreed, hfind]

theorem sharedFreed_first (hoffer : p.chans[c].hasOffer = true) (first : ∀ x : ChanId, p.chans[x].hasOffer = true →
      (c - (p.pool.rotation + 1)).val ≤ (x - (p.pool.rotation + 1)).val) : p.sharedFreed k
    = ({ p with pool := { p.pool with rotation := c } } : Part).atUnit k c UnitView.offerAgain := by
  have hfind : (chansAfter p.pool.rotation).find? (fun c => p.chans[c].hasOffer) = some c := by
    rw [chansAfter_eq]
    exact find_rotated (asks := fun c => p.chans[c].hasOffer) hoffer first
  rw [sharedFreed, hfind]

/-! ### A waiting CQ_RESET is of no ring whose entry frees a slot to a unit (R122) -/

theorem restartIfWaiting_atUnit {f : UnitContext → UnitView → UnitView}
    (h : ¬(p.admin.unit = .waiting ∧ p.admin.waitingOn = .ring q)) :
    (p.atUnit k c f).restartIfWaiting q = p.atUnit k c f := by
  refine restartIfWaiting_of_not ?_
  obtain hadmin | ⟨-, e, hadmin⟩ := p.atUnit_admin_cases k c f
  · rw [hadmin]
    exact h
  · rw [hadmin]
    rintro ⟨hunit, -⟩
    cases hunit

end Part

section Write
variable {s : State} {q : RingId} {part : EntryPart} {p' : Part}

theorem exec_entryWriteDone (h : s.part.port.answers (.entryWrite q part))
    (hq : (s.part.endTransaction.writeDone s.clock q part).restartIfWaiting q = p') :
    exec .entryWriteDone s = .next (s.withPart (p'.closeStep s.clock s.part.marks)) := by
  have hdone : exec .entryWriteDone s = .next (s.onPart fun k p => p.answered k fun
      | .entryWrite q part => some fun p1 => (p1.writeDone k q part).restartIfWaiting q
      | .stepRead _ | .acqWrite | .adminRead | .configRead => none) := rfl
  rw [hdone]
  unfold State.onPart
  dsimp only
  rw [Part.answered_live h rfl (fun old hold => by cases old <;> simp_all [TxKind.alike]), hq]
  rfl

theorem exec_entryWriteDone_quiet (h : s.part.port.answers (.entryWrite q part))
    (hq : (s.part.endTransaction.writeDone s.clock q part).restartIfWaiting q = p') (hm : p'.marks = s.part.marks) :
    exec .entryWriteDone s = .next (s.granted p') := by
  rw [exec_entryWriteDone h hq, Part.closeStep_quiet hm]
  rfl

end Write

end Sys2Proof.Machine
end

section
/-! PROOF. A slot is offered to a channel: its pending report is staged, its removal report is, its HELD step starts, or nothing
waits for the slot (R10 to R12, R22, R23, R108, R109, R149). -/

namespace Sys2Proof.Machine

theorem Channel.Law.halt_none {ch : Channel} (law : ch.Law) (hactive : ch.active = none) : ch.halt = none := by
  obtain ⟨-, -, -, -, hhalt, -, -, -⟩ := law
  by_contra hne
  obtain ⟨hsome, -⟩ := hhalt (Option.isSome_iff_ne_none.2 hne)
  simp [hactive] at hsome

theorem Channel.noSteps_of_shut {ch : Channel} (h : ch.state = .closed ∨ ch.state = .stopped ∨ ch.state = .subordinate) :
    ch.noSteps = true := by
  rcases h with h | h | h <;> simp [noSteps, h]

namespace Part
variable {p p' : Part} {k : Clock} {c : ChanId} {q : RingId} {e : Step} {rest : List Step} {n : Nat}

theorem withView_parked_view : p.withView c (p.view c).parked = p := by
  rw [UnitView.parked_eq (by simp [view]), withView_view]

/-! ### A channel without a pending report -/

theorem offerAgain_hands (hpending : p.chans[c].pendingReport = none) :
    (p.view c).offerAgain (p.context k c) = (p.view c).handOver (p.context k c) := by
  have hview : (p.view c).ch.pendingReport = none := hpending
  rw [UnitView.offerAgain, hview]

/-- A channel which does nothing with the slot (R109). -/
theorem offer_stands (hpending : p.chans[c].pendingReport = none) (hturn : (p.view c).turn (p.context k c) = none)
    (hstate : p.chans[c].derivedState = p.chans[c].state) : p.atUnit k c UnitView.offerAgain = p :=
  atUnit_handOver (offerAgain_hands hpending) rfl
    (.stop (n := 0) hturn (by rw [UnitView.settle_stands_as (u := p.view c) hstate rfl, withView_view])) (by omega)

theorem offer_nothing (law : p.chans[c].Law) (hactive : p.chans[c].active = none)
    (hpending : p.chans[c].pendingReport = none) (hheld : p.chans[c].state ≠ .held)
    (hfault : p.chans[c].state = .idle → p.chans[c].fetchFault = false) : p.atUnit k c UnitView.offerAgain = p := by
  refine offer_stands hpending ?_ law.derivedState_eq
  have hnoHalt := law.halt_none hactive
  obtain ⟨hactiveState, hwaiting, -, hrest, -, -, hevaluates, -⟩ := law
  cases hstate : p.chans[c].state with
  | held => exact absurd hstate hheld
  | active => exact absurd (hactiveState.1 hstate) (by rw [hactive]; decide)
  | idle =>
    exact UnitView.turn_empty (u := p.view c) (Channel.steps_of_open (.inl hstate) hnoHalt) (hrest (.inl hstate)).2
      fun _ => hfault hstate
  | waiting =>
    obtain ⟨harmed, -, hqueue⟩ := hevaluates (hwaiting.1 hstate)
    obtain ⟨e, rest, hcons⟩ := List.exists_cons_of_ne_nil hqueue
    exact UnitView.turn_evaluates (u := p.view c) (Channel.steps_of_open (.inr (.inl hstate)) hnoHalt) hcons harmed hactive
      (hwaiting.1 hstate)
  | closed => exact UnitView.turn_shut (u := p.view c) (Channel.noSteps_of_shut (.inl hstate))
  | stopped => exact UnitView.turn_shut (u := p.view c) (Channel.noSteps_of_shut (.inr (.inl hstate)))
  | subordinate => exact UnitView.turn_shut (u := p.view c) (Channel.noSteps_of_shut (.inr (.inr hstate)))

/-- A GOOD step that was HELD for the slot starts, with HELD_START recorded (R12). -/
theorem offer_starts {late held : Bool} (hpending : p.chans[c].pendingReport = none) (steps : p.chans[c].noSteps = false)
    (hactive : p.chans[c].active = none) (hqueue : p.chans[c].queue = e :: rest) (hlength : rest.length ≤ 3)
    (harmed : p.chans[c].armed = .due late held) (hfree : p.pool.reservedBusy c = false) (hruns : e.runsOn rest)
    (hbound : rest ≠ [] → p.chans[c].bound = some q) :
    p.atUnit k c UnitView.offerAgain = p.stepStarts c q k.tb e late held rest := by
  have hstarts := settles_start (p := p) (k := k) (c := c) (q := q) (u := p.view c) steps hqueue harmed hactive hfree hruns
    hbound
  rw [withView_view] at hstarts
  exact atUnit_handOver (offerAgain_hands hpending) rfl hstarts (by omega)

/-! ### A removal report -/

section Removal
variable {status : DoneStatus} {value : Nat} {time : Ticks} (hpending : p.chans[c].pendingReport = none)
  (steps : p.chans[c].noSteps = false) (hqueue : p.chans[c].queue = e :: rest)
  (harmed : p.chans[c].armed = .removal status value time) (hbound : p.chans[c].bound = some q)
  (hstage : (p.view c).canStage (p.context k c) = true)
include hpending steps hqueue harmed hbound hstage

theorem offer_removes (hn : n ≤ 31)
    (hs : p.Settles k c ((p.view c).removed c q p.pool.slotForReport time e status value rest) n p') :
    p.atUnit k c UnitView.offerAgain = p' :=
  atUnit_handOver (offerAgain_hands hpending) rfl
    (.turn (UnitView.turn_removes (u := p.view c) steps hqueue harmed hbound hstage) rfl hs) (by omega)

theorem offer_removes_last (hrest : rest = []) (hactive : p.chans[c].active = none)
    (hfault : p.chans[c].fetchFault = false) : p.atUnit k c UnitView.offerAgain
      = p.removalStaged c q p.pool.slotForReport time e status value rest := by
  subst hrest
  have hlast := settles_removed_last (p := p) (k := k) (c := c) (q := q) (u := p.view c) (e := e)
    (slot := p.pool.slotForReport) (time := time) (status := status) (value := value) steps hactive hfault
  rw [withView_parked_view] at hlast
  exact offer_removes hpending steps hqueue harmed hbound hstage (by omega) hlast

theorem offer_removes_chain {e2 : Step} {more : List Step} (hrest : rest = e2 :: more) (hlength : more.length ≤ 2)
    (hactive : p.chans[c].active = none) (hevaluation : p.chans[c].evaluation = .none)
    (hvalid : validate p.chans[c] (p.wide c) e2.record = none) (hstart : e2.record.start = 0 ∨ e2.record.start = 1)
    (hruns : e2.runsOn more) : p.atUnit k c UnitView.offerAgain
      = (p.removalStaged c q p.pool.slotForReport time e status value rest).chainProceeds c q k.tb e2 more := by
  subst hrest
  have hchain := settles_removed_chain (p := p) (k := k) (c := c) (q := q) (u := p.view c) (e := e) (rest := more)
    (slot := p.pool.slotForReport) (time := time) (status := status) (value := value) steps hactive
    (.inl (by simp [view])) hevaluation hvalid hstart hruns hbound
  rw [withView_parked_view] at hchain
  exact offer_removes hpending steps hqueue harmed hbound hstage (by omega) hchain

theorem offer_removes_behind {a : Step} (hlength : rest.length ≤ 3) (hactive : p.chans[c].active = some a)
    (hruns : a.runsOn rest) : p.atUnit k c UnitView.offerAgain
      = armBehind c q k.tb rest (p.removalStaged c q p.pool.slotForReport time e status value rest) := by
  have hbehind := settles_removed_behind (p := p) (k := k) (c := c) (q := q) (u := p.view c) (e := e) (rest := rest)
    (slot := p.pool.slotForReport) (time := time) (status := status) (value := value) steps hactive (by simp [view]) hruns
    fun _ => hbound
  rw [withView_view] at hbehind
  exact offer_removes hpending steps hqueue harmed hbound hstage (by omega) hbehind

end Removal

end Part

/-! ### A pending report (R22, R23, R149) -/

/-- The view once the pending report of a shut channel was admitted into a slot. -/
def UnitView.pendingAdmitted (u : UnitView) (q : RingId) (d : Draft) : UnitView :=
  { u with
    pool := u.pool.append q
      { slot := u.pool.slotForReport, entry := { draft := d, seq := u.ch.seq, missed := u.ch.missed } }
    ch := { u.ch.afterAdmission with pendingReport := none, bound := if u.ch.state = .closed then none else some q }
    told := d.haltReport }

theorem UnitView.offerAgain_pending {x : UnitContext} {u : UnitView} {q : RingId} {d : Draft}
    (hpending : u.ch.pendingReport = some d) (hbound : u.ch.bound = some q) (hstage : u.canStage x = true) :
    u.offerAgain x = u.pendingAdmitted q d := by
  have hadmits : u.offerAgain x = { u.stage d with
      told := d.haltReport
      ch := { (u.stage d).ch with
        pendingReport := none
        bound := if (u.stage d).ch.state = .closed then none else (u.stage d).ch.bound } } := by
    rw [offerAgain, hpending]
    exact if_pos hstage
  rw [hadmits, stage_bound hbound, pendingAdmitted, ← hbound]
  rfl

namespace Part
variable {p : Part} {k : Clock} {c : ChanId} {q : RingId} {d : Draft}

theorem pendingStaged_eq : p.pendingStaged c q p.pool.slotForReport d
    = (p.withView c ((p.view c).pendingAdmitted q d)).hearHalt c d.haltReport := by
  have hwaits : (p.withView c ((p.view c).pendingAdmitted q d)).waitsOnChannel c = true
      ↔ p.admin.unit = .waiting ∧ p.admin.waitingOn = .channel c := by
    simp [waitsOnChannel]
  obtain ⟨channel, time, body⟩ := d
  cases body with
  | flush n tag sqHead fetchError => exact (if_congr hwaits rfl rfl).symm
  | capture | wrap | threshold | stepDone | fault => rfl

theorem offer_pending (hpending : p.chans[c].pendingReport = some d) (hbound : p.chans[c].bound = some q)
    (hstate : p.chans[c].state = .stopped ∨ p.chans[c].state = .closed)
    (hstage : (p.view c).canStage (p.context k c) = true) :
    p.atUnit k c UnitView.offerAgain = p.pendingStaged c q p.pool.slotForReport d := by
  have hshut : ((p.view c).pendingAdmitted q d).ch.derivedState = ((p.view c).pendingAdmitted q d).ch.state :=
    Channel.derivedState_of_shut (hstate.symm.imp_left .inl)
  have hunit : p.atUnit k c UnitView.offerAgain
      = (p.withView c ((p.view c).offerAgain (p.context k c)).settle).hearHalt c
          ((p.view c).offerAgain (p.context k c)).settle.told := rfl
  rw [hunit, UnitView.offerAgain_pending hpending hbound hstage, UnitView.settle_stands_as hshut rfl, pendingStaged_eq]
  rfl

end Part

end Sys2Proof.Machine
end

section
/-! PROOF. Entry writes that end (R12, R108, R109, R114 to R117, R122, R125, R145). -/

namespace Sys2Proof.Machine

namespace Part
variable {p m p' : Part} {k : Clock} {c : ChanId} {q : RingId} {part : EntryPart} {f : UnitContext → UnitView → UnitView}

/-- An entry write whose freed slot goes to a unit, with no CQ_RESET that waits for the ring. -/
theorem writeDone_to_unit (hdone : p.writeDone k q part = m.atUnit k c f) (hadmin : m.admin = p.admin)
    (hwait : ¬(p.admin.unit = .waiting ∧ p.admin.waitingOn = .ring q)) (hunit : m.atUnit k c f = p') :
    (p.writeDone k q part).restartIfWaiting q = p' := by
  rw [hdone, restartIfWaiting_atUnit (by rw [hadmin]; exact hwait), hunit]

end Part

theorem Channel.length_of_window {ch : Channel} {e : Step} {rest : List Step} (hqueue : ch.queue = e :: rest)
    (hroom : ch.window.length ≤ 4) : rest.length ≤ 3 := by
  simp only [Channel.window, hqueue, List.length_append, List.length_cons] at hroom
  omega

/-- Settles O38: the slot goes to the step that was HELD for it. -/
theorem freedReservedSlotStartsTheHeldStep : Obligations.FreedReservedSlotStartsTheHeldStep := by
  intro s q q2 c st rest e behind late part h hpart p ch hlist hslot hheld hfree hpending hhalt hactive hqueue hroom harmed
    hruns hbound hwait
  have hdrop : p.pool.dropHead q = (p.written s.tb q part st rest).pool := by
    rw [Pool.dropHead, hlist]
    rfl
  rw [hdrop] at hfree
  exact exec_entryWriteDone h (Part.writeDone_to_unit (Part.writeDone_reserved hpart hlist hslot) rfl hwait
    (Part.offer_starts (p := p.written s.tb q part st rest) hpending (Channel.steps_of_open (.inr (.inr (.inr hheld))) hhalt)
      hactive hqueue (Channel.length_of_window hqueue hroom) harmed hfree hruns hbound))

/-! ### A CQ_RESET that waits for the write (R122, R145) -/

/-- A ring that a CQ_RESET has restarted at slot 0 (R122). -/
abbrev Ring.resetBy (r : Ring) (cmd : Command) : Ring :=
  { state := .ready, base := if cmd.record.bit 5 then cmd.record.word 8 else r.base
    size := r.size, writeIndex := 0, phase := true, hostHead := 0, outstanding := 0
    inFlight := false, halfWritten := false }

namespace Part
variable {p m : Part} {q : RingId} {cmd : Command} {r : Ring}

theorem restartIfWaiting_ring (r0 : Ring) (hunit : p.admin.unit = .waiting) (hwait : p.admin.waitingOn = .ring q)
    (hcurrent : p.admin.current = some cmd) (hbase : r.base = r0.base) (hsize : r.size = r0.size)
    (hflight : r.inFlight = false) : (p.setRing q r).restartIfWaiting q
      = Part.complete { p with rings := p.rings.set q (r0.resetBy cmd) } .ok
        ⟨BitVec.ofNat 32 p.pool.lists[q].length, 0, 0, 0⟩ := by
  have hring : (p.setRing q r).rings[q] = r := Vector.getElem_set_self ..
  have hreset : r.restarted (newBaseOf cmd.record) = r0.resetBy cmd := by
    rw [Ring.restarted, newBaseOf_getD, hflight, hbase, hsize]
  rw [restartIfWaiting_current (p := p.setRing q r) hunit hwait hcurrent, hring, hreset]
  simp only [setRing, Vector.set_set]
  rfl

end Part

theorem UnitView.canStage_of_shared {x : UnitContext} {u : UnitView} (h : u.pool.hasShared = true) :
    u.canStage x = true := by
  rw [canStage, h, Bool.true_or]

theorem Part.pendingStaged_marks {p : Part} {c : ChanId} {q : RingId} {slot : SlotKind} {d : Draft} :
    (p.pendingStaged c q slot d).marks = p.marks := by
  unfold pendingStaged
  dsimp only
  split
  · split
    · exact Part.complete_marks ..
    · rfl
  · rfl

/-! ### The slot of a written entry, offered to a channel (R108, R109) -/

section Offered
variable {s : State} {q q2 : RingId} {part : EntryPart} {m : Part} {c : ChanId} {e : Step} {behind : List Step}
  {status : DoneStatus} {value : Nat} {time : Ticks}
  (h : s.part.port.answers (.entryWrite q part))
  (hdone : (s.part.endTransaction.writeDone s.clock q part).restartIfWaiting q = m.atUnit s.clock c UnitView.offerAgain)
  (hmarks : m.marks = s.part.marks) (hstage : (m.view c).canStage (m.context s.clock c) = true)
  (hbound : m.chans[c].bound = some q2)
include h hdone hmarks hstage hbound

theorem exec_offer_pending {d : Draft} (hpending : m.chans[c].pendingReport = some d)
    (hstate : m.chans[c].state = .stopped ∨ m.chans[c].state = .closed) :
    exec .entryWriteDone s = .next (s.granted (m.pendingStaged c q2 m.pool.slotForReport d)) :=
  exec_entryWriteDone_quiet h (hdone.trans (Part.offer_pending hpending hbound hstate hstage))
    (Part.pendingStaged_marks.trans hmarks)

variable (hpending : m.chans[c].pendingReport = none) (harmed : m.chans[c].armed = .removal status value time)
  (hqueue : m.chans[c].queue = e :: behind) (hroom : m.chans[c].window.length ≤ 4) (hhalt : m.chans[c].halt = none)
include hpending harmed hqueue hroom hhalt

theorem exec_offer_removes_held (hheld : m.chans[c].state = .held) (hactive : m.chans[c].active = none)
    (hevaluation : m.chans[c].evaluation = .none) :
    (behind = [] → m.chans[c].fetchFault = false → exec .entryWriteDone s
        = .next (s.granted (m.removalStaged c q2 m.pool.slotForReport time e status value behind)))
      ∧ (∀ (e2 : Step) (more : List Step), behind = e2 :: more → validate m.chans[c] (m.wide c) e2.record = none →
          e2.record.start = 0 ∨ e2.record.start = 1 → e2.runsOn more → exec .entryWriteDone s
            = .next (s.withPart (Part.closeStep ((m.removalStaged c q2 m.pool.slotForReport time e status value behind).chainProceeds
                c q2 s.tb e2 more) s.clock s.part.marks))) := by
  have hlength := Channel.length_of_window hqueue hroom
  have hsteps : m.chans[c].noSteps = false := Channel.steps_of_open (.inr (.inr (.inr hheld))) hhalt
  refine ⟨fun hlast hfault => ?_, fun e2 more hmore hvalid hstart hruns => ?_⟩
  · exact exec_entryWriteDone_quiet h (hdone.trans (Part.offer_removes_last hpending hsteps hqueue harmed hbound hstage hlast
      hactive hfault)) hmarks
  · rw [hmore, List.length_cons] at hlength
    exact exec_entryWriteDone h (hdone.trans (Part.offer_removes_chain hpending hsteps hqueue harmed hbound hstage hmore
      (by omega) hactive hevaluation hvalid hstart hruns))

theorem exec_offer_removes_behind {a : Step} (hstate : m.chans[c].state = .active) (hactive : m.chans[c].active = some a)
    (hruns : a.runsOn behind) : exec .entryWriteDone s = .next (s.granted (Part.armBehind c q2 s.tb behind
      (m.removalStaged c q2 m.pool.slotForReport time e status value behind))) :=
  exec_entryWriteDone_quiet h (hdone.trans (Part.offer_removes_behind hpending
    (Channel.steps_of_open (.inr (.inr (.inl hstate))) hhalt) hqueue harmed hbound hstage
    (Channel.length_of_window hqueue hroom) hactive hruns)) ((Part.armBehind_marks ..).trans hmarks)

end Offered

/-- Settles O37: the write, the freed slot, and the CQ_RESET that waits. -/
theorem entryWritesAdvanceTheRing : Obligations.EntryWritesAdvanceTheRing := by
  refine ⟨?_, ?_, ?_, ?_⟩
  · intro s q st rest h p g hlist hslot hoffers hwait
    have hdone := (Part.writeDone_shared (k := s.clock) (.inl rfl) hlist hslot).trans (Part.sharedFreed_none hoffers)
    exact exec_entryWriteDone_quiet h (hdone ▸ Part.restartIfWaiting_of_not hwait) rfl
  · intro s q half h p g hwait
    cases half with
    | false => exact exec_entryWriteDone_quiet h (Part.restartIfWaiting_of_not (p := p.writeDone s.clock q .pad) hwait) rfl
    | true =>
      exact exec_entryWriteDone_quiet h (Part.restartIfWaiting_of_not (p := p.writeDone s.clock q .longFirst) hwait) rfl
  · intro s q part st rest h hpart p g written hlist
    have hwritten : p.written s.tb q part st rest = written := by
      rcases hpart with rfl | rfl <;> rfl
    have hpool : p.pool.dropHead q = written.pool := by
      rw [Pool.dropHead, hlist]
      rfl
    refine ⟨fun hslot => ⟨fun hoffers => ?_, ?_⟩, ?_⟩
    · have hdone := (Part.writeDone_shared (k := s.clock) hpart hlist hslot).trans (Part.sharedFreed_none hoffers)
      have hdone' : p.writeDone s.clock q part = written := hdone.trans hwritten
      refine ⟨fun hwait => ?_, fun cmd hunit hwait hcurrent => ?_⟩
      · exact exec_entryWriteDone_quiet h (by rw [hdone', Part.restartIfWaiting_of_not (p := written) hwait]) rfl
      · refine exec_entryWriteDone_quiet h ?_ (Part.complete_marks ..)
        have hrest : rest = written.pool.lists[q] := (Vector.getElem_set_self ..).symm
        rw [hdone', hrest]
        exact Part.restartIfWaiting_ring (p := { written with rings := p.rings }) g hunit hwait hcurrent rfl rfl rfl
    · intro c q2 ch mine hoffer first hbound hshared hwait
      rw [hpool] at hshared
      have hdone : p.writeDone s.clock q part = mine.atUnit s.clock c UnitView.offerAgain :=
        ((Part.writeDone_shared (k := s.clock) hpart hlist hslot).trans (congrArg (·.sharedFreed s.clock) hwritten)).trans
          (Part.sharedFreed_first (p := written) hoffer first)
      have hunit := Part.writeDone_to_unit hdone rfl hwait rfl
      have hslot2 : mine.pool.slotForReport = .shared := if_pos hshared
      have hstage : (mine.view c).canStage (mine.context s.clock c) = true :=
        UnitView.canStage_of_shared (u := mine.view c) hshared
      rw [← hslot2]
      exact ⟨fun d => exec_offer_pending h hunit rfl hstage hbound,
        fun e behind status value time hpending harmed hqueue hroom hhalt =>
          ⟨exec_offer_removes_held h hunit rfl hstage hbound hpending harmed hqueue hroom hhalt,
            fun a => exec_offer_removes_behind h hunit rfl hstage hbound hpending harmed hqueue hroom hhalt⟩⟩
    · intro c q2 ch slot hslot hfree hactive hwait
      rw [hpool] at hfree
      have hdone : p.writeDone s.clock q part = written.atUnit s.clock c UnitView.offerAgain :=
        (Part.writeDone_reserved (k := s.clock) hpart hlist hslot).trans
          (congrArg (·.atUnit s.clock c UnitView.offerAgain) hwritten)
      have hunit := Part.writeDone_to_unit hdone rfl hwait rfl
      have hslot2 : slot = written.pool.slotForReport := congrArg Pool.slotForReport hpool
      have hstage : (written.view c).canStage (written.context s.clock c) = true :=
        (UnitView.canStage_iff (u := written.view c) hactive).mpr (.inr hfree)
      rw [hslot2]
      refine ⟨fun law hpending hheld hidle => ?_, fun d hbound => exec_offer_pending h hunit rfl hstage hbound,
        fun e behind status value time hbound hpending harmed hqueue hroom hheld hhalt hevaluation => ?_⟩
      · exact exec_entryWriteDone_quiet h
          (hunit.trans (Part.offer_nothing (p := written) law hactive hpending hheld hidle)) rfl
      · exact exec_offer_removes_held h hunit rfl hstage hbound hpending harmed hqueue hroom hhalt hheld hactive hevaluation
  · intro s q part cmd h hpart p g hunit hwait hcurrent
    refine exec_entryWriteDone_quiet h ?_ (Part.complete_marks ..)
    rcases hpart with rfl | rfl
    · exact Part.restartIfWaiting_ring g hunit hwait hcurrent rfl rfl rfl
    · exact Part.restartIfWaiting_ring g hunit hwait hcurrent rfl rfl rfl

end Sys2Proof.Machine
end

end
